-- ==== Sys2Proof/Word.lean ====
section
/-! DEFINITION. The words of the AF8128 and the index types of its records (spec/00_scope.md, tables 1.1 and 4.1). -/

namespace Sys2Proof

/-- A data byte of a frame, a buffer or a command word field. -/
abbrev Byte := BitVec 8

/-- A 16-bit field: sequences, tags, periods. -/
abbrev Half := BitVec 16

/-- One 32-bit word of the register window; also a timebase value (R27, R155). -/
abbrev Word := BitVec 32

/-- A byte address inside the 16 KB register window (R155). -/
abbrev Addr := BitVec 14

/-- A 7-bit device, slot, listen or subject address (R80). -/
abbrev DeviceAddr := BitVec 7

/-- An entry of the Mirror Table, 0 to 127. -/
abbrev EntryId := Fin 128

/-- A segment, 0 to 7: its queue, its controller and its pair of lines. -/
abbrev SegId := Fin 8

/-- A direct transaction slot, 0 to 7. -/
abbrev SlotId := Fin 8

/-- A sweep group. Group number g (1 to 15) is the index g - 1: record 0 of the window has no group behind it (R32). -/
abbrev GroupId := Fin 15

/-- A listen entry, 0 to 15. -/
abbrev ListenId := Fin 16

end Sys2Proof
end

