-- ==== Sys2Proof/Syntax.lean ====
section
/-! DEFINITION. The commands the part takes: one constructor per row of spec/opcode_table.json, with what the outside
gives in that event (a written word, sensed line levels, what a target answered on the wire). -/

namespace Sys2Proof

/-- Levels the part senses on one segment's pair of lines; true is high (R75). -/
structure Lines where
  scl : Bool
  sda : Bool
  deriving DecidableEq, Repr, Inhabited

/-- What a recovery senses in the event that begins or resumes it: the levels at the check of step 1, and the levels
after the data line is released in the stop of step 3 (R109). -/
structure RecoverySense where
  check : Lines
  afterStop : Lines
  deriving DecidableEq, Repr, Inhabited

/-- Everything a command-word write may need to know of the lines (SEGMENT_ONLINE, SEGMENT_RESTORE). -/
structure SegmentSense where
  lines : Lines
  recovery : RecoverySense
  deriving DecidableEq, Repr, Inhabited

/-- What the other side of the part's own frame gave from one byte boundary to another: one acknowledge bit for each byte the
part sent (true is ACK), and the bytes it read, the check byte included, each in wire order (R82, R83, R84). An event carries
what came since the last event that told of it. -/
structure Traffic where
  acks : List Bool
  reads : List Byte
  deriving DecidableEq, Repr, Inhabited

/-- What has passed on one segment's lines since the last event that told of it, as a tick of the timebase finds it, or a
command that may request the early end of a frame (R78, R79, R85, R91): the whole byte periods of the part's own frame, or the
data bytes of a reception in `traffic.reads`; the bits so far of the byte in progress, most significant first, and of a foreign
byte that the part only observes all eight once it has passed (R81); and whether the part has released the clock line, in its
frame or in the stop attempt after one, and it is still low (R79, R106). A segment with nothing new, a clock-hold that goes on
included, has no report. -/
structure LineReport where
  seg : SegId
  traffic : Traffic
  bits : List Bool
  clockHeld : Bool
  deriving DecidableEq, Repr, Inhabited

/-- The places at which the part has released the data line and may sense it low: arbitration loss (R81). -/
inductive LossPoint where
  /-- a bit of the byte the part sends, counted from the most significant -/
  | bit (n : Fin 8)
  /-- the refusal of the last byte read -/
  | refusal
  /-- the release of the data line before a repeated start, or the one that forms a stop -/
  | release
  deriving DecidableEq, Repr, Inhabited

/-- The two ends of a reception (R137). -/
inductive ReceptionEnding where
  | stop
  | repeatedStart
  deriving DecidableEq, Repr, Inhabited

/-- A command of the block: a row of spec/opcode_table.json. Command-word rows carry the argument and the tag of the word
written (R146), and those that may end a frame early also what has passed on the lines before them (R85); SOFT_RESET carries
how many of its 20 deliveries are taken before the next command of the queue (R149, log entry 32); register rows carry the byte
enables and the data of the write (R155); line events carry the segment and what the wire gave. -/
inductive Instr where
  -- command-word writes with all four byte enables (Table 9.1)
  | entryEnable (arg : Byte) (tag : Half)
  | entryDisable (arg : Byte) (tag : Half)
  | entryRefresh (arg : Byte) (tag : Half)
  | entryCommit (arg : Byte) (tag : Half)
  | entryAckFault (arg : Byte) (tag : Half)
  | groupSweep (arg : Byte) (tag : Half)
  | segmentOnline (arg : Byte) (tag : Half) (sense : SegmentSense)
  | segmentOffline (arg : Byte) (tag : Half)
  | segmentRestore (arg : Byte) (tag : Half) (sense : RecoverySense)
  | slotSubmit (arg : Byte) (tag : Half)
  | slotCancel (arg : Byte) (tag : Half) (reports : List LineReport := [])
  | slotRelease (arg : Byte) (tag : Half)
  | listenEnable (arg : Byte) (tag : Half)
  | listenDisable (arg : Byte) (tag : Half)
  | capturePop (arg : Byte) (tag : Half)
  | captureFlush (arg : Byte) (tag : Half)
  | softReset (arg : Byte) (tag : Half) (reports : List LineReport := []) (taken : Fin 21 := 20)
  | unknownCommand (code : Byte) (arg : Byte) (tag : Half)
  -- other host accesses (R155 to R158)
  | stagingBufferWrite (entry : EntryId) (word : Fin 8) (be : BitVec 4) (data : Word)
  | groupPeriodWrite (record : Fin 16) (be : BitVec 4) (data : Word)
  | eventFlagWrite (be : BitVec 4) (data : Word)
  | eventEnableWrite (be : BitVec 4) (data : Word)
  | accessErrorRecordClear (be : BitVec 4) (data : Word)
  | accessErrorCountClear (be : BitVec 4) (data : Word)
  | hostWrite (addr : Addr) (be : BitVec 4) (data : Word)
  | unmappedRead (addr : Addr)
  -- resets and the timebase
  | pinReset
  | pinResetRelease
  | timebaseTick (reports : List LineReport := [])
  -- timers of the Refresh Scheduler
  | entryDueExpiry (entry : EntryId)
  | groupDueExpiry (group : GroupId)
  -- a Segment Controller and its lines
  | selection (seg : SegId)
  | startReport (entry : EntryId)
  | attemptBegin (seg : SegId) (lines : Lines) (sense : RecoverySense)
  | frameEnd (seg : SegId) (wire : Traffic)
  | frameEndedEarly (seg : SegId) (wire : Traffic)
  | arbitrationLoss (seg : SegId) (wire : Traffic) (point : LossPoint)
  | holdTimeout (seg : SegId) (wire : Traffic)
  | stopAttemptEnd (seg : SegId)
  | stopAttemptTimeout (seg : SegId) (sense : RecoverySense)
  | settleEnd (seg : SegId)
  | backoffEnd (seg : SegId)
  | busyLimitExpiry (seg : SegId)
  | foreignStart (seg : SegId)
  | foreignStop (seg : SegId)
  | addressByteDecision (seg : SegId) (byte : Byte)
  | receptionEnd (seg : SegId) (bytes : List Byte) (ending : ReceptionEnding)
  -- reports taken at their owners
  | deviceNotice
  | refreshCompletion (entry : EntryId)
  | memberRefreshCompletion (entry : EntryId)
  | writeCompletion (entry : EntryId)
  | slotCompletion (slot : SlotId)
  -- recovery
  | releasePulse (seg : SegId) (lines : Lines) (afterStop : Lines)
  | lineClearHoldEnd (seg : SegId) (lines : Lines) (afterStop : Lines)
  | recoveryHoldTimeout (seg : SegId)
  | clockLineSensedHigh (seg : SegId) (sda : Bool) (sense : RecoverySense)
  | recoveryLinesSensedHigh (seg : SegId) (sda : Bool) (afterStop : Lines)
  deriving DecidableEq, Repr

end Sys2Proof
end

