-- ==== Sys2Proof/Decode.lean ====
section
/-! DEFINITION. The commands that a word spells by the bits of spec/opcode_table.json. No row of the table gives bits (98_reader.md
counts 0 rows with "fixed" and 0 with "fields"), so no word spells a command. -/

namespace Sys2Proof

/-- The command that a word of `nbits` bits spells by the table: none, for no row gives bits. -/
def decodeTableWord (_nbits _w : Nat) : Option Instr := none

end Sys2Proof
end

