-- ==== Sys2Proof/Config.lean ====
section
/-! DEFINITION. What is fixed for every AF8128 (the capacities and limits the spec states as numbers), and the one free
value of the model. -/

namespace Sys2Proof

namespace Config

/-- Places in a Segment Queue (R60). -/
def queueCapacity : Nat := 32

/-- Occupancy from which a ROUTINE admission is refused FULL (R63). -/
def routineLimit : Nat := 24

/-- URGENT selections in a row after which a waiting ROUTINE job is taken (R69). -/
def guardLimit : Nat := 4

/-- Places of the capture ring (R135). -/
def ringPlaces : Nat := 32

/-- Data bytes a reception stores and acknowledges (R91). -/
def receptionBytes : Nat := 32

/-- Release pulses of one recovery (R109). -/
def recoveryPulses : Nat := 16

/-- Length of the line-clear hold in milliseconds (R109). -/
def lineClearMs : Nat := 40

/-- Global word 00h: part code 8128h and revision 01h (Table 10.3). -/
def partWord : Word := 0x00018128#32

/-- FREE VALUE. What the lines show in a command-word write that reaches the part through a row without line operands (a
HOST_WRITE of the command word, an UNKNOWN_COMMAND that spells a known code). Nothing constrains it; notes/assumptions/3. -/
opaque freeSense : Nat → SegmentSense

end Config

end Sys2Proof
end

