-- ==== Sys2Proof/Machine/State.lean ====
section
/-! DEFINITION. The state of the AF8128 as plain data: every record, buffer, queue, counter and mode the spec names, the
reports in flight between its blocks, the queue of pending commands, and the values of all of it after reset. -/

namespace Sys2Proof.Machine

/-! ## Names of states and codes (Table 10.10; each list is in code order) -/

/-- Enable state of an entry (R3). -/
inductive EnableState where
  | disabled | enabled | draining
  deriving DecidableEq, Repr

/-- Validity of an entry's published bytes (R14). -/
inductive Validity where
  | none | fresh | stale
  deriving DecidableEq, Repr

/-- Refresh activity of an entry (R4). -/
inductive RefreshActivity where
  | idle | queued | active | held
  deriving DecidableEq, Repr

/-- Write state of an entry (R5). -/
inductive WriteState where
  | none | pending | active | done | failed | mismatch
  deriving DecidableEq, Repr

/-- Results of attempts and jobs (Table 6.4). -/
inductive Result where
  | noneRecorded | ok | noDevice | dataRefused | readRefused | verifyMismatch | lostArbitration | checkMismatch
  | busBusy | lineStuck | holdTimeout | segmentFault | aborted | cancelled | flushed | segmentDown
  deriving DecidableEq, Repr

/-- State of a sweep group (R32). -/
inductive GroupState where
  | idle | sweeping
  deriving DecidableEq, Repr

/-- State of a direct transaction slot (R118). -/
inductive SlotState where
  | free | submitted | active | done
  deriving DecidableEq, Repr

/-- State of a Segment Controller (R93). -/
inductive CtlState where
  | offline | idle | foreign | receiving | active | settle | backoff | recovering | quarantined | stopping
  deriving DecidableEq, Repr

/-- Bus state a controller keeps for its segment (R77). -/
inductive BusState where
  | free | busy | notKept
  deriving DecidableEq, Repr

/-- Outcome field of the result word (R148). -/
inductive CommandOutcome where
  | noCommand | accepted | refused
  deriving DecidableEq, Repr

/-- Reasons of a refused command (R148). -/
inductive Reason where
  | none | unknownCommand | badIndex | badState | badConfig | notWritable | grouped | segmentDown | queueFull | tooLate
  | empty | resetting
  deriving DecidableEq, Repr

/-- Reasons of an access error (Table 10.1). -/
inductive AccessReason where
  | none | unmapped | readOnly | partialWrite | resetting | locked | readMode
  deriving DecidableEq, Repr

/-- The two classes of a Segment Queue (R60). -/
inductive JobClass where
  | urgent | routine
  deriving DecidableEq, Repr

/-- Listen actions (Table 8.2). -/
inductive ListenAction where
  | capture | captureRefresh | refresh | sink
  deriving DecidableEq, Repr

/-! ## The Mirror Table (chapter 1) -/

/-- Configuration of an entry, each field as stored, an encoding that names no value included (R1, Table 10.4). -/
structure EntryConfig where
  segment : BitVec 3
  address : DeviceAddr
  offsetWidth : BitVec 2
  mode : BitVec 2
  group : BitVec 4
  length : BitVec 6
  checkCode : Bool
  verify : Bool
  registerOffset : Half
  period : Half
  settleDelay : Byte
  deriving DecidableEq, Repr

/-- An entry record (R1 to R12), with its due timer (R28: none while stopped) and the class in which its REFRESH job was
admitted (R30). -/
structure Entry where
  cfg : EntryConfig
  enable : EnableState
  validity : Validity
  refresh : RefreshActivity
  refreshClass : JobClass
  write : WriteState
  writeOvertaken : Bool
  refreshAgain : Bool
  writeAgain : Bool
  lastRefresh : Result
  lastWrite : Result
  missed : Byte
  publishSeq : Half
  sweepNumber : Half
  publishTime : Word
  faultMark : Bool
  published : Vector Byte 32
  staging : Vector Byte 32
  held : Vector Byte 32
  dueTime : Option Word
  deriving DecidableEq, Repr

/-! ## The Refresh Scheduler (chapter 2) -/

/-- A group record (Table 2.2) with its due timer (R34: none while stopped). The member count is not stored (R32). -/
structure Group where
  period : Half
  state : GroupState
  outstanding : Nat
  torn : Bool
  lastTorn : Bool
  sweepAgain : Bool
  sweepNumber : Half
  missed : Byte
  lastPublish : Word
  dueTime : Option Word
  deriving DecidableEq, Repr

/-! ## Segment Queues (chapter 4) -/

/-- Kind and owner of a job, which together identify it (R61, R62). -/
inductive JobRef where
  | refresh (entry : EntryId)
  | write (entry : EntryId)
  | direct (slot : SlotId)
  deriving DecidableEq, Repr

/-- A job record (Table 4.2). -/
structure Job where
  ref : JobRef
  cls : JobClass
  tag : Option GroupId
  attempts : BitVec 3
  deriving DecidableEq, Repr

/-- A Segment Queue: its two classes, head first, and its urgent streak (R60, R70). -/
structure SegQueue where
  urgent : List Job
  routine : List Job
  streak : Nat
  deriving DecidableEq, Repr

/-! ## Segment Controllers and their signalling (chapters 5 and 6) -/

/-- The frame an active job has in use (R96). -/
inductive FrameInUse where
  | refreshRead | writeFrame | verifyRead | slotFrame
  deriving DecidableEq, Repr

/-- The elements of a frame between its start and its stop. -/
inductive Element where
  /-- address byte after the start, or after a repeated start -/
  | address (byte : Byte) (afterRepeatedStart : Bool)
  | offset (byte : Byte)
  | sendData (byte : Byte)
  | sendCheck
  | readData
  | readCheck
  deriving DecidableEq, Repr

/-- What an ended attempt left: its result, its counts and its read bytes (R84). -/
structure FrameOutcome where
  result : Result
  acked : BitVec 6
  received : BitVec 6
  bytes : List Byte
  deriving DecidableEq, Repr

/-- Where an active job stands between its frames. -/
inductive JobPhase where
  /-- its next attempt is due (R97) -/
  | due
  /-- a frame, or the stop attempt after one, runs -/
  | running
  /-- its retry delay runs since that timebase value (R104) -/
  | backoff (since : Word)
  /-- its retry delay begins at the end of the foreign frame (R101) -/
  | backoffPending
  /-- its settle delay runs since that timebase value (R53) -/
  | settle (since : Word)
  /-- held in recovery after LINE_STUCK (R110) -/
  | recovering
  deriving DecidableEq, Repr

/-- The active job of a controller (R96). `started` says that its start report has been taken; `last` is the outcome of
its last attempt, once one has ended. -/
structure ActiveJob where
  job : Job
  frame : FrameInUse
  started : Bool
  phase : JobPhase
  last : Option FrameOutcome
  abortPending : Bool
  deriving DecidableEq, Repr

/-- What the part itself does on the lines as initiator outside recovery. -/
inductive OwnWire where
  | quiet
  /-- a start waits for the clock line since that timebase value (R97) -/
  | startWait (since : Word)
  /-- a frame runs, its start driven at that timebase value -/
  | frame (since : Word)
  /-- the stop attempt after a hold timeout runs since that timebase value (R106) -/
  | stopAttempt (since : Word)
  deriving DecidableEq, Repr

/-- Steps of the line-clear procedure at which it waits (R109). -/
inductive RecoveryPhase where
  /-- step 1, or after a stop: waiting for the clock line -/
  | checkWait (since : Word)
  /-- step 2: the next release pulse is to be issued -/
  | pulsing
  /-- step 2: the clock line has not risen after a pulse -/
  | pulseWait (since : Word)
  /-- step 4: the clock line is held low -/
  | lineClear (since : Word)
  /-- step 4: waiting for both lines after the hold -/
  | clearWait (since : Word)
  deriving DecidableEq, Repr

/-- A recovery in progress: where it stands and the pulses issued (R109). -/
structure Recovery where
  phase : RecoveryPhase
  pulses : Nat
  deriving DecidableEq, Repr

/-- Configuration of a segment as stored (Table 6.3, Table 10.5). -/
structure SegConfig where
  speed : BitVec 2
  retryLimit : BitVec 3
  threshold : BitVec 4
  backoff : Byte
  holdLimit : Byte
  busyLimit : Byte
  deriving DecidableEq, Repr

/-- A Segment Controller with the signalling state of its segment (R92 to R96). `traffic` is what the other side has given of
the part's frame so far (R84), `holdSince` the timebase value at which the part released the clock line of the clock-hold it
measures (R79). Of the reception in progress, or the last: `rxCount` data bytes stand in `rx`, `overran` says that more came,
and `acksGiven` are the acknowledges given to its data bytes, in order (R91); for a frame of the part they are those given to
the bytes it reads (R82). `earlyEnd` is the pending early-end request, with the count of byte periods at whose boundary the
frame ends (R85). The byte in progress stands from its most significant bit, 0 beyond its `bitCount` bits. `dropped` is the
frame still on the wire whose job a soft reset has dropped (R116), and `stopReleased` says that a stop attempt has released its
data line (R106). -/
structure Controller where
  cfg : SegConfig
  state : CtlState
  streak : BitVec 4
  lastResult : Result
  active : Option ActiveJob
  tx : Vector Byte 32
  rx : Vector Byte 32
  busySince : Option Word
  recovery : Option Recovery
  own : OwnWire
  bus : BusState
  traffic : Traffic
  holdSince : Option Word
  rxCount : Nat
  overran : Bool
  acksGiven : List Bool
  checkValue : Byte
  byteInProgress : Byte
  bitCount : Nat
  earlyEnd : Option Nat
  addressExpected : Bool
  dropped : List Element
  stopReleased : Bool
  deriving DecidableEq, Repr

/-! ## Direct Transaction Slots (chapter 7) -/

/-- A slot record: descriptor as stored, data area, state and result fields (R118 to R121). -/
structure Slot where
  segment : BitVec 3
  address : DeviceAddr
  kind : BitVec 3
  checkOption : Bool
  writeCount : BitVec 6
  readCount : BitVec 6
  data : Vector Byte 64
  state : SlotState
  cancelPending : Bool
  result : Result
  acked : BitVec 6
  received : BitVec 6
  attemptsUsed : BitVec 4
  deriving DecidableEq, Repr

/-! ## The Listen Unit (chapter 8) -/

/-- A listen entry as stored (Table 8.1). -/
structure ListenEntry where
  enabled : Bool
  mask : Byte
  address : DeviceAddr
  action : BitVec 3
  deriving DecidableEq, Repr

/-- An open reception of one segment (R136). -/
structure Reception where
  listenIndex : ListenId
  address : DeviceAddr
  action : ListenAction
  reserved : Bool
  deriving DecidableEq, Repr

/-- A completed capture record (Table 8.4). -/
structure CaptureRecord where
  sequence : Half
  segment : SegId
  listenIndex : ListenId
  address : DeviceAddr
  length : BitVec 6
  overran : Bool
  action : ListenAction
  arrivalTime : Word
  data : Vector Byte 32
  deriving DecidableEq, Repr

/-! ## Reports in flight -/

/-- A job's completion (R107), with the segment that sent it. -/
structure Completion where
  ref : JobRef
  tag : Option GroupId
  seg : SegId
  result : Result
  bytes : List Byte
  acked : BitVec 6
  received : BitVec 6
  attemptsUsed : BitVec 4
  deriving DecidableEq, Repr

/-- A report on its way from a controller or a queue to the owner of a job (R15, R66, R107). -/
inductive Report where
  | started (ref : JobRef)
  | completed (c : Completion)
  deriving DecidableEq, Repr

/-- A device notice on its way from the Listen Unit to the Mirror Table (R138). -/
structure Notice where
  segment : SegId
  subject : DeviceAddr
  deriving DecidableEq, Repr

/-! ## Soft reset -/

/-- A delivery of a soft reset to a block (R149); the Mirror Table and the Refresh Scheduler take theirs in one event. -/
inductive Delivery where
  | controller (seg : SegId)
  | queue (seg : SegId)
  | mirrorAndScheduler
  | slots
  | listen
  | events
  deriving DecidableEq, Repr

/-! ## Command Port, Host Port -/

/-- The result word without its resetting indicator, which is a view of RESETTING (R148). -/
structure ResultWord where
  code : Byte
  outcome : CommandOutcome
  reason : Reason
  tag : Half
  deriving DecidableEq, Repr

/-- The access-error record (R158). -/
structure AccessRecord where
  valid : Bool
  isWrite : Bool
  reason : AccessReason
  address : Addr
  deriving DecidableEq, Repr

/-! ## The whole state -/

/-- The AF8128. The last fields are the model's own: reports and notices in flight between blocks (events of their own in
the spec), the index of the free value, and the queue of commands waiting to be taken. -/
structure State where
  /-- RESETn is asserted (R160) -/
  inReset : Bool
  /-- millisecond timebase (R27) -/
  timebase : Word
  entries : Vector Entry 128
  groups : Vector Group 15
  queues : Vector SegQueue 8
  ctls : Vector Controller 8
  slots : Vector Slot 8
  listen : Vector ListenEntry 16
  receptions : Vector (Option Reception) 8
  /-- completed capture records, oldest first (R140) -/
  ring : List CaptureRecord
  nextSequence : Half
  lostCount : Half
  /-- the thirteen event flags in the order of section 10.7 (R152) -/
  flags : BitVec 13
  enables : BitVec 13
  /-- command word as read back (R146) -/
  command : Word
  result : ResultWord
  /-- the Command Port is RESETTING (R149) -/
  resetting : Bool
  /-- deliveries of the soft reset that are still to be taken (R149) -/
  undelivered : Fin 21
  accessRecord : AccessRecord
  accessCount : Half
  /-- entry detail select (R159) -/
  detailSelect : EntryId
  /-- D[31:0] as driven by the last host read (R155) -/
  readData : Word
  reports : List Report
  notices : List Notice
  freeIndex : Nat
  pending : List Instr
  deriving DecidableEq, Repr

/-- The spec names no way in which the part stops: every host access completes (R155, R157) and every event is taken
whole (00_scope.md 4.4). So no command faults and this type has no constructor. -/
inductive Fault
  deriving DecidableEq, Repr

/-- Why a command has no outcome. -/
inductive Refusal where
  /-- Raised by an arm of exec for a row that has no meaning yet; no arm raises it now. Safe. -/
  | notModelled (mnemonic : String)
  deriving DecidableEq, Repr

/-! ## Values after reset -/

/-- Table 1.3, after pin reset. `refreshClass` has no meaning while the activity is IDLE: DESIGN CHOICE, log entry 2. -/
def Entry.reset : Entry :=
  { cfg :=
      { segment := 0#3, address := 0#7, offsetWidth := 0#2, mode := 0#2, group := 0#4, length := 0#6,
        checkCode := false, verify := false, registerOffset := 0#16, period := 0#16, settleDelay := 0#8 }
    enable := .disabled, validity := .none, refresh := .idle, refreshClass := .routine, write := .none
    writeOvertaken := false, refreshAgain := false, writeAgain := false
    lastRefresh := .noneRecorded, lastWrite := .noneRecorded, missed := 0#8
    publishSeq := 0#16, sweepNumber := 0#16, publishTime := 0#32, faultMark := false
    published := Vector.replicate 32 0#8, staging := Vector.replicate 32 0#8, held := Vector.replicate 32 0#8
    dueTime := none }

/-- Table 2.3, after pin reset. -/
def Group.reset : Group :=
  { period := 0#16, state := .idle, outstanding := 0, torn := false, lastTorn := false, sweepAgain := false
    sweepNumber := 0#16, missed := 0#8, lastPublish := 0#32, dueTime := none }

/-- Table 4.5, after pin reset. -/
def SegQueue.reset : SegQueue := { urgent := [], routine := [], streak := 0 }

/-- Nothing given by the other side. -/
def noTraffic : Traffic := { acks := [], reads := [] }

/-- Tables 6.3 and 6.6 and R92, after pin reset. -/
def Controller.reset : Controller :=
  { cfg := { speed := 0#2, retryLimit := 2#3, threshold := 4#4, backoff := 1#8, holdLimit := 20#8, busyLimit := 50#8 }
    state := .offline, streak := 0#4, lastResult := .noneRecorded, active := none
    tx := Vector.replicate 32 0#8, rx := Vector.replicate 32 0#8
    busySince := none, recovery := none, own := .quiet, bus := .notKept
    traffic := noTraffic, holdSince := none, rxCount := 0, overran := false, acksGiven := []
    checkValue := 0#8, byteInProgress := 0#8, bitCount := 0, earlyEnd := none, addressExpected := false
    dropped := [], stopReleased := false }

/-- Table 7.5. -/
def Slot.reset : Slot :=
  { segment := 0#3, address := 0#7, kind := 0#3, checkOption := false, writeCount := 0#6, readCount := 0#6
    data := Vector.replicate 64 0#8, state := .free, cancelPending := false, result := .noneRecorded
    acked := 0#6, received := 0#6, attemptsUsed := 0#4 }

/-- Table 8.5, after pin reset. -/
def ListenEntry.reset : ListenEntry := { enabled := false, mask := 0#8, address := 0#7, action := 0#3 }

/-- The part after pin reset, RESETn released (R160 and every chapter's after-reset table). `readData`, the reports and
notices in flight and `freeIndex` are the model's own: log entries 2 and 3. -/
def State.reset : State :=
  { inReset := false, timebase := 0#32
    entries := Vector.replicate 128 Entry.reset
    groups := Vector.replicate 15 Group.reset
    queues := Vector.replicate 8 SegQueue.reset
    ctls := Vector.replicate 8 Controller.reset
    slots := Vector.replicate 8 Slot.reset
    listen := Vector.replicate 16 ListenEntry.reset
    receptions := Vector.replicate 8 none
    ring := [], nextSequence := 0#16, lostCount := 0#16
    flags := 0#13, enables := 0#13
    command := 0#32
    result := { code := 0#8, outcome := .noCommand, reason := .none, tag := 0#16 }
    resetting := false, undelivered := 0
    accessRecord := { valid := false, isWrite := false, reason := .none, address := 0#14 }
    accessCount := 0#16
    detailSelect := 0
    readData := 0#32
    reports := [], notices := [], freeIndex := 0, pending := [] }

end Sys2Proof.Machine
end

