-- ==== Sys2Proof/Machine/Buffers.lean ====
section
/-! DEFINITION. Buffers, bit fields and byte lanes: the small helpers over vectors and words that every block uses. -/

namespace Sys2Proof.Machine

/-- Element `i` of a fixed array of records. -/
def getAt {α : Type} {n : Nat} (v : Vector α n) (i : Fin n) : α := v[i.val]'i.isLt

/-- The array with element `i` replaced. -/
def putAt {α : Type} {n : Nat} (v : Vector α n) (i : Fin n) (x : α) : Vector α n := v.set i.val x i.isLt

/-- The array whose element `i` is `f i`. -/
def tabulate {α : Type} (n : Nat) (f : Fin n → α) : Vector α n := ⟨⟨List.ofFn f⟩, by simp⟩

/-- A buffer that holds the bytes given from byte 0 and 0 beyond them (00_scope.md 4.3). -/
def fill (n : Nat) (bytes : List Byte) : Vector Byte n := tabulate n fun i => bytes.getD i.val 0#8

/-- Bytes 0 to k - 1 of a buffer. -/
def firstBytes {n : Nat} (k : Nat) (v : Vector Byte n) : List Byte := v.toList.take k

/-- Byte lane `j` of a word: D[8j+7:8j] (R155). -/
def lane (w : Word) (j : Nat) : Byte := w.extractLsb' (8 * j) 8

/-- The word at word index `w` of a byte buffer, little-endian (R155). -/
def wordAt {n : Nat} (v : Vector Byte n) (w : Nat) : Word :=
  let byte (j : Nat) : Word := (v.toList.getD (4 * w + j) 0#8).setWidth 32
  byte 0 ||| byte 1 <<< 8 ||| byte 2 <<< 16 ||| byte 3 <<< 24

/-- A host write of word `w` of a byte-writable buffer: each enabled lane replaces its byte (R48, R120, R156). -/
def storeLanes {n : Nat} (v : Vector Byte n) (w : Nat) (be : BitVec 4) (data : Word) : Vector Byte n :=
  tabulate n fun i =>
    if i.val / 4 = w ∧ be.getLsbD (i.val % 4) = true then lane data (i.val % 4) else getAt v i

/-- A field value placed at bit `pos` of a word (section 10.7). -/
def field {w : Nat} (v : BitVec w) (pos : Nat) : Word := (v.setWidth 32) <<< pos

/-- One bit placed at bit `pos` of a word. -/
def bitField (b : Bool) (pos : Nat) : Word := field (BitVec.ofBool b) pos

/-- A saturating increment (00_scope.md 4.1). -/
def satInc {w : Nat} (c : BitVec w) : BitVec w := if c = BitVec.allOnes w then c else c + 1#w

/-- A range check of a command argument (R147): the index, or none where the value is outside it. -/
def indexOf (n : Nat) (v : Nat) : Option (Fin n) := if h : v < n then some ⟨v, h⟩ else none

/-- All indices of an array of n records in ascending order. -/
def indices (n : Nat) : List (Fin n) := List.finRange n

/-- The first element that meets `p`, with what stands before and after it. -/
def splitAtFirst {α : Type} (p : α → Bool) : List α → Option (List α × α × List α)
  | [] => none
  | x :: xs => if p x then some ([], x, xs) else (splitAtFirst p xs).map fun r => (x :: r.1, r.2)

end Sys2Proof.Machine
end

