-- ==== Sys2Proof/Machine/Flags.lean ====
section
/-! DEFINITION. The thirteen event flags, INTn, and the effect of a result on the fault streak. -/

namespace Sys2Proof.Machine

/-- The event flags in bit order (Table 9.2, section 10.7). -/
inductive Event where
  | entryFault | writeDone | verifyMismatch | groupPublished | groupTorn | slotDone | captureArrived | captureLost
  | queuePressure | segmentQuarantined | segmentStopped | accessError | resetDone
  deriving DecidableEq, Repr

/-- Bit of a flag in the flag word and the enable word (section 10.7). -/
def Event.bit : Event → Nat
  | .entryFault => 0
  | .writeDone => 1
  | .verifyMismatch => 2
  | .groupPublished => 3
  | .groupTorn => 4
  | .slotDone => 5
  | .captureArrived => 6
  | .captureLost => 7
  | .queuePressure => 8
  | .segmentQuarantined => 9
  | .segmentStopped => 10
  | .accessError => 11
  | .resetDone => 12

/-- A set request taken at the Event Unit: the flag is set, or stays set (R152). -/
def raise (e : Event) (s : State) : State := { s with flags := s.flags ||| (1#13 <<< e.bit) }

/-- A flag as the host reads it (R152). -/
def flagSet (e : Event) (s : State) : Bool := s.flags.getLsbD e.bit

/-- INTn is asserted exactly when some flag and its enable are both set (R153). -/
def intAsserted (s : State) : Bool := s.flags &&& s.enables != 0#13

/-- The last column of Table 6.4: the fault streak after an attempt result (R103). -/
def streakAfter (r : Result) (streak : BitVec 4) : BitVec 4 :=
  match r with
  | .ok | .noDevice | .dataRefused | .readRefused | .verifyMismatch => 0#4
  | .busBusy | .lineStuck | .holdTimeout | .segmentFault => satInc streak
  | .lostArbitration | .checkMismatch | .aborted => streak
  | .noneRecorded | .cancelled | .flushed | .segmentDown => streak

end Sys2Proof.Machine
end

