-- ==== Sys2Proof/Machine/Ops.lean ====
section
/-! DEFINITION. The named operations over the records of the state: access to each record, time, access errors, the
Command Port, a slot's entry into DONE, and the delivery of a completion to its owner. -/

namespace Sys2Proof.Machine

/-! ## Access to records -/

def entry (e : EntryId) (s : State) : Entry := getAt s.entries e
def group (g : GroupId) (s : State) : Group := getAt s.groups g
def queue (q : SegId) (s : State) : SegQueue := getAt s.queues q
def ctl (q : SegId) (s : State) : Controller := getAt s.ctls q
def slot (k : SlotId) (s : State) : Slot := getAt s.slots k
def listenEntry (i : ListenId) (s : State) : ListenEntry := getAt s.listen i
def reception (q : SegId) (s : State) : Option Reception := getAt s.receptions q

def modEntry (e : EntryId) (f : Entry → Entry) (s : State) : State :=
  { s with entries := putAt s.entries e (f (entry e s)) }

def modGroup (g : GroupId) (f : Group → Group) (s : State) : State :=
  { s with groups := putAt s.groups g (f (group g s)) }

def setQueue (q : SegId) (x : SegQueue) (s : State) : State := { s with queues := putAt s.queues q x }

def modCtl (q : SegId) (f : Controller → Controller) (s : State) : State :=
  { s with ctls := putAt s.ctls q (f (ctl q s)) }

def modSlot (k : SlotId) (f : Slot → Slot) (s : State) : State :=
  { s with slots := putAt s.slots k (f (slot k s)) }

def modListen (i : ListenId) (f : ListenEntry → ListenEntry) (s : State) : State :=
  { s with listen := putAt s.listen i (f (listenEntry i s)) }

def setReception (q : SegId) (x : Option Reception) (s : State) : State :=
  { s with receptions := putAt s.receptions q x }

/-- A report is sent to its owner: it joins those in flight (R107). -/
def send (r : Report) (s : State) : State := { s with reports := s.reports ++ [r] }

/-! ## Configuration read as what it names -/

/-- The segment of an entry (Table 1.2). -/
def EntryConfig.seg (c : EntryConfig) : SegId := ⟨c.segment.toNat, c.segment.isLt⟩

/-- The group of an entry: none when ungrouped (Table 1.2). -/
def EntryConfig.groupId (c : EntryConfig) : Option GroupId :=
  if h : c.group.toNat = 0 then none else some ⟨c.group.toNat - 1, by have := c.group.isLt; omega⟩

/-- Mode codes (Table 10.10). -/
def EntryConfig.modeIsRead (c : EntryConfig) : Bool := c.mode == 0#2

/-- The segment of a slot's descriptor (Table 7.2). -/
def Slot.seg (k : Slot) : SegId := ⟨k.segment.toNat, k.segment.isLt⟩

/-- The listen action a stored code names (Table 10.10). -/
def listenAction (code : BitVec 3) : Option ListenAction :=
  match code.toNat with
  | 0 => some .capture
  | 1 => some .captureRefresh
  | 2 => some .refresh
  | 3 => some .sink
  | _ => none

/-- A member of a group: an entry in ENABLED or DRAINING whose group field names it (R32). -/
def isMember (g : GroupId) (x : Entry) : Bool := x.enable != .disabled && x.cfg.groupId == some g

/-- The member count: counted from the entries, not stored (R32). -/
def memberCount (g : GroupId) (s : State) : Nat := ((indices 128).filter fun e => isMember g (entry e s)).length

/-- The reserved count: the receptions that hold a reservation (R135, R143). -/
def reservedCount (s : State) : Nat :=
  ((indices 8).filter fun q => match reception q s with | some r => r.reserved | none => false).length

/-- Free places of the capture ring (R135). -/
def freePlaces (s : State) : Nat := Config.ringPlaces - (s.ring.length + reservedCount s)

/-! ## Time (R27) -/

/-- A due time has been reached and its expiry not yet taken: it is not ahead of the timebase (R28, R34; log entry 6). -/
def reached (due : Word) (s : State) : Bool := (s.timebase - due).toNat < 2 ^ 31

/-- The timebase has advanced by at least `ms` since `since` (R53, R79, R98, R104, R106, R109). -/
def elapsed (since : Word) (ms : Nat) (s : State) : Bool := ms ≤ (s.timebase - since).toNat

/-! ## Access errors (R157, R158) -/

/-- An access error is taken: the count is raised, an empty record is filled, ACCESS_ERROR is requested. -/
def accessError (address : Addr) (isWrite : Bool) (reason : AccessReason) (s : State) : State :=
  raise .accessError
    { s with
      accessCount := satInc s.accessCount
      accessRecord :=
        if s.accessRecord.valid then s.accessRecord
        else { valid := true, isWrite := isWrite, reason := reason, address := address &&& 0x3FFC#14 } }

/-! ## The Command Port (R146 to R148) -/

/-- An owner's answer to a command. -/
inductive Answer where
  | accepted
  | refused (reason : Reason)
  deriving DecidableEq, Repr

/-- The command word that carries a code, an argument and a tag (Table 10.3). -/
def commandWord (code arg : Byte) (tag : Half) : Word := field code 0 ||| field arg 8 ||| field tag 16

/-- The result word takes the answer of the command (R148). -/
def answerCommand (code : Byte) (tag : Half) (a : Answer) (s : State) : State :=
  match a with
  | .accepted => { s with result := { code := code, outcome := .accepted, reason := .none, tag := tag } }
  | .refused r => { s with result := { code := code, outcome := .refused, reason := r, tag := tag } }

/-- A command with a known code (R146, R147): the command word is kept; while RESETTING it is refused RESETTING; an
argument outside its range is refused BAD_INDEX; otherwise its owner decides it in the same event. While RESETn is asserted a
write changes nothing (R160). -/
def portCommand {α : Type} (code arg : Byte) (tag : Half) (index : Option α) (owner : α → State → State × Answer)
    (s : State) : State :=
  if s.inReset then s
  else
    let s1 := { s with command := commandWord code arg tag }
    if s1.resetting then answerCommand code tag (.refused .resetting) s1
    else
      match index with
      | none => answerCommand code tag (.refused .badIndex) s1
      | some i => answerCommand code tag (owner i s1).2 (owner i s1).1

/-! ## Slots entering DONE (R124) -/

/-- A slot takes the report that ends its job: the result fields are written, the read part is replaced, cancel pending is
cleared and SLOT_DONE is requested. -/
def finishSlot (k : SlotId) (result : Result) (acked received : BitVec 6) (used : BitVec 4) (bytes : List Byte)
    (s : State) : State :=
  raise .slotDone <| modSlot k (fun x =>
    { x with
      state := .done, cancelPending := false, result := result, acked := acked, received := received
      attemptsUsed := used
      data := tabulate 64 fun i => if i.val < 32 then getAt x.data i else bytes.getD (i.val - 32) 0#8 }) s

/-- A completion goes to its owner (R107): a slot takes it in the same event (R118, R124), an entry's is sent to it, to be taken
as an event of its own. -/
def deliver (c : Completion) (s : State) : State :=
  match c.ref with
  | .direct k => finishSlot k c.result c.acked c.received c.attemptsUsed c.bytes s
  | .refresh _ | .write _ => send (.completed c) s

/-- An event of the part outside the host's accesses takes place only while RESETn is released: while it is asserted every
block holds its reset values (R160). -/
def outOfReset (f : State → State) (s : State) : State := if s.inReset then s else f s

end Sys2Proof.Machine
end

