-- ==== Sys2Proof/Machine/Queue.lean ====
section
/-! DEFINITION. Segment Queues (chapter 4): admission, promotion, removal, flush, the arbiter, and the emptying by a
soft reset. -/

namespace Sys2Proof.Machine

/-- Answers to an admission request (Table 4.1). -/
inductive Admission where
  | admitted | full | down
  deriving DecidableEq, Repr

/-- Occupancy: jobs in both classes, without the active job (R60). -/
def occupancy (q : SegQueue) : Nat := q.urgent.length + q.routine.length

/-- A job with this kind and owner (R62). -/
def hasRef (r : JobRef) (j : Job) : Bool := j.ref == r

/-- Controller states in which the queue answers DOWN (R63). -/
def refusesJobs (c : CtlState) : Bool :=
  match c with
  | .offline | .quarantined | .stopping => true
  | .idle | .foreign | .receiving | .active | .settle | .backoff | .recovering => false

/-- Table 4.3, first row that holds. -/
def admissionAnswer (seg : SegId) (cls : JobClass) (s : State) : Admission :=
  if refusesJobs (ctl seg s).state then .down
  else if s.resetting then .down
  else if cls = .routine ∧ Config.routineLimit ≤ occupancy (queue seg s) then .full
  else if cls = .urgent ∧ Config.queueCapacity ≤ occupancy (queue seg s) then .full
  else .admitted

/-- A job joins the tail of its class (R60). -/
def enqueue (j : Job) (q : SegQueue) : SegQueue :=
  match j.cls with
  | .urgent => { q with urgent := q.urgent ++ [j] }
  | .routine => { q with routine := q.routine ++ [j] }

/-- The controller observes a foreign frame, as target or not. -/
def inForeignFrame (c : CtlState) : Bool := c == .foreign || c == .receiving

/-- A busy wait begins now (R98). -/
def beginBusyWait (seg : SegId) (s : State) : State := modCtl seg (fun c => { c with busySince := some s.timebase }) s

/-- An admission request and its answer (R63). A job admitted to an empty queue while the controller is FOREIGN or
RECEIVING without an active job begins a busy wait (R98). -/
def requestAdmission (seg : SegId) (j : Job) (s : State) : State × Admission :=
  match admissionAnswer seg j.cls s with
  | .admitted =>
    let s1 := setQueue seg (enqueue j (queue seg s)) s
    (if occupancy (queue seg s) = 0 ∧ inForeignFrame (ctl seg s).state = true ∧ (ctl seg s).active = none then
        beginBusyWait seg s1
      else s1, .admitted)
  | a => (s, a)

/-- A promotion request for an entry's REFRESH job; the answer is true for PROMOTED (R64). -/
def promote (seg : SegId) (e : EntryId) (s : State) : State × Bool :=
  let q := queue seg s
  match splitAtFirst (hasRef (.refresh e)) q.routine with
  | some (before, j, after) =>
    (setQueue seg { q with urgent := q.urgent ++ [{ j with cls := .urgent }], routine := before ++ after } s, true)
  | none => (s, q.urgent.any (hasRef (.refresh e)))

/-- A queue without the job named, or none where it holds no such job (R65). -/
def withoutJob (r : JobRef) (q : SegQueue) : Option SegQueue :=
  match splitAtFirst (hasRef r) q.urgent with
  | some (before, _, after) => some { q with urgent := before ++ after }
  | none =>
    match splitAtFirst (hasRef r) q.routine with
    | some (before, _, after) => some { q with routine := before ++ after }
    | none => none

/-- A removal request; the answer is true for REMOVED (R65). A queue that empties by removal while the controller has no
active job ends its busy wait (R98). -/
def removeJob (seg : SegId) (r : JobRef) (s : State) : State × Bool :=
  match withoutJob r (queue seg s) with
  | some q =>
    let s1 := setQueue seg q s
    (if occupancy q = 0 ∧ (ctl seg s).active = none then modCtl seg (fun c => { c with busySince := none }) s1 else s1,
      true)
  | none => (s, false)

/-- The arbiter (Table 4.4): the job selected and the queue after it. -/
def arbiter (q : SegQueue) : Option (Job × SegQueue) :=
  match q.urgent, q.routine with
  | [], [] => none
  | u :: us, [] => some (u, { urgent := us, routine := [], streak := 0 })
  | u :: us, r :: rs =>
    if q.streak < Config.guardLimit then some (u, { urgent := us, routine := r :: rs, streak := q.streak + 1 })
    else some (r, { urgent := u :: us, routine := rs, streak := 0 })
  | [], r :: rs => some (r, { urgent := [], routine := rs, streak := 0 })

/-- The FLUSHED report of one job (R66): a DIRECT job's slot takes it within the flush, an entry's is sent to it. -/
def reportFlushed (seg : SegId) (s : State) (j : Job) : State :=
  deliver
    { ref := j.ref, tag := j.tag, seg := seg, result := .flushed, bytes := [], acked := 0#6, received := 0#6
      attemptsUsed := 0#4 } s

/-- A flush: the queue is emptied, its streak zeroed, and FLUSHED goes to each job's owner in queue order (R66). -/
def flush (seg : SegId) (s : State) : State :=
  ((queue seg s).urgent ++ (queue seg s).routine).foldl (reportFlushed seg) (setQueue seg SegQueue.reset s)

/-- A soft reset empties the queue: every job is taken out without a result, the streak is 0, and a slot whose DIRECT job is
taken out is FREE with the values of Table 7.5 (R73). -/
def emptyQueue (seg : SegId) (s : State) : State :=
  { s with
    queues := putAt s.queues seg SegQueue.reset
    slots := tabulate 8 fun k =>
      if ((queue seg s).urgent ++ (queue seg s).routine).any (hasRef (.direct k)) then Slot.reset else slot k s }

end Sys2Proof.Machine
end

