-- ==== Sys2Proof/Machine/Mirror.lean ====
section
/-! DEFINITION. The Mirror Table (chapter 1): publish, fault mark, validity, and the requests an entry makes of its queue
with the answers it takes (R30, R31, R50). -/

namespace Sys2Proof.Machine

/-- A publish of an entry (R12): `bytes` holds exactly the entry's length of bytes, `number` is the group's new sweep
number for a grouped entry. -/
def publish (e : EntryId) (bytes : List Byte) (number : Option Half) (s : State) : State :=
  modEntry e (fun x =>
    { x with
      published := fill 32 (bytes.take x.cfg.length.toNat)
      publishSeq := x.publishSeq + 1#16
      validity := .fresh
      publishTime := s.timebase
      sweepNumber := match number with | some n => n | none => x.sweepNumber }) s

/-- FRESH becomes STALE; NONE and STALE are kept (R14). -/
def staled (v : Validity) : Validity :=
  match v with
  | .fresh => .stale
  | .none => .none
  | .stale => .stale

/-- The validity goes from FRESH to STALE (R14). -/
def makeStale (e : EntryId) (s : State) : State := modEntry e (fun x => { x with validity := staled x.validity }) s

/-- The entry is fault-marked; ENTRY_FAULT is requested where the mark was clear (R17). -/
def markFault (e : EntryId) (s : State) : State :=
  if (entry e s).faultMark then s else raise .entryFault (modEntry e (fun x => { x with faultMark := true }) s)

/-- The missed count is raised by one, saturating (R8). -/
def raiseMissed (e : EntryId) (s : State) : State := modEntry e (fun x => { x with missed := satInc x.missed }) s

/-- Write-overtaken is set at the admission of a REFRESH job of an ungrouped entry while its write is PENDING, or ACTIVE
with write-again set (R50). -/
def overtakenAtAdmission (x : Entry) : Bool :=
  x.cfg.groupId == none && (x.write == .pending || (x.write == .active && x.writeAgain))

/-- A refused DOWN REFRESH request at its entry (R30). -/
def refreshRefusedDown (e : EntryId) (s : State) : State :=
  markFault e (modEntry e (fun x => { x with validity := staled x.validity, lastRefresh := .segmentDown }) s)

/-- A request for a REFRESH job and the answer taken at the entry, one event (R30). -/
def requestRefresh (e : EntryId) (cls : JobClass) (tag : Option GroupId) (s : State) : State × Admission :=
  match requestAdmission (entry e s).cfg.seg { ref := .refresh e, cls := cls, tag := tag, attempts := 0#3 } s with
  | (s1, .admitted) =>
    (modEntry e (fun x =>
      { x with
        refresh := .queued, refreshClass := cls
        writeOvertaken := x.writeOvertaken || overtakenAtAdmission x }) s1, .admitted)
  | (s1, .full) =>
    (if cls = .routine then raise .queuePressure (raiseMissed e s1) else raiseMissed e s1, .full)
  | (s1, .down) => (refreshRefusedDown e s1, .down)

/-- The answer a command gets for an admission (R31, R49, R122). -/
def admissionToAnswer (a : Admission) : Answer :=
  match a with
  | .admitted => .accepted
  | .full => .refused .queueFull
  | .down => .refused .segmentDown

/-- Refresh-again is set (R6). -/
def setRefreshAgain (e : EntryId) (s : State) : State := modEntry e (fun x => { x with refreshAgain := true }) s

/-- An on-demand refresh of an ungrouped ENABLED entry by its refresh activity: step 3 of R31, the table of R24. -/
def demandRefresh (e : EntryId) (s : State) : State × Answer :=
  match (entry e s).refresh, (entry e s).refreshClass with
  | .idle, _ => ((requestRefresh e .urgent none s).1, admissionToAnswer (requestRefresh e .urgent none s).2)
  | .queued, .routine =>
    match promote (entry e s).cfg.seg e s with
    | (s1, true) => (modEntry e (fun x => { x with refreshClass := .urgent }) s1, .accepted)
    | (s1, false) => (setRefreshAgain e s1, .accepted)
  | .queued, .urgent => (s, .accepted)
  | .active, _ => (setRefreshAgain e s, .accepted)
  | .held, _ => (s, .accepted)

/-- The expiry of an ungrouped entry's due timer (R28, R29): the next due time from the previous one, and the request or
the coalescing. -/
def entryExpiry (e : EntryId) (due : Word) (s : State) : State :=
  let s1 := modEntry e (fun x => { x with dueTime := some (due + x.cfg.period.setWidth 32) }) s
  match (entry e s1).refresh with
  | .idle => (requestRefresh e .routine none s1).1
  | .queued | .active => raiseMissed e s1
  | .held => s1

/-- Write-overtaken is set where a commit is accepted while the refresh of an ungrouped entry is QUEUED or ACTIVE (R50). -/
def overtakeRefresh (e : EntryId) (s : State) : State :=
  modEntry e (fun x =>
    { x with
      writeOvertaken :=
        x.writeOvertaken || (x.cfg.groupId == none && (x.refresh == .queued || x.refresh == .active)) }) s

/-- A request for a WRITE job (R49, R56): URGENT, write state PENDING on admission. -/
def requestWrite (e : EntryId) (s : State) : State × Admission :=
  match requestAdmission (entry e s).cfg.seg { ref := .write e, cls := .urgent, tag := none, attempts := 0#3 } s with
  | (s1, .admitted) => (modEntry e (fun x => { x with write := .pending }) s1, .admitted)
  | (s1, a) => (s1, a)

end Sys2Proof.Machine
end

