-- ==== Sys2Proof/Machine/Sweep.lean ====
section
/-! DEFINITION. Sweeps of a group (chapter 2): start, end, restart, withdrawal, the group timer, and an entry reaching
DISABLED, which may end a sweep and stop the timer. -/

namespace Sys2Proof.Machine

/-- One ENABLED member is asked for its REFRESH job at a sweep start (R38 step 2). DRAINING members are not asked. -/
def askMember (g : GroupId) (cls : JobClass) (s : State) (e : EntryId) : State :=
  if isMember g (entry e s) = true ∧ (entry e s).enable = .enabled then
    match requestRefresh e cls (some g) s with
    | (s1, .admitted) => modGroup g (fun x => { x with outstanding := x.outstanding + 1 }) s1
    | (s1, _) => modGroup g (fun x => { x with torn := true }) s1
  else s

/-- A HELD member at a torn end: held bytes discarded, activity IDLE (R43). -/
def discardHeld (g : GroupId) (s : State) (e : EntryId) : State :=
  if isMember g (entry e s) = true ∧ (entry e s).refresh = .held then
    modEntry e (fun x => { x with refresh := .idle, held := fill 32 [] }) s
  else s

/-- A HELD member at a group publish: published from its held buffer, activity IDLE (R42 step 2). -/
def publishHeld (g : GroupId) (number : Half) (s : State) (e : EntryId) : State :=
  if isMember g (entry e s) = true ∧ (entry e s).refresh = .held then
    modEntry e (fun x => { x with refresh := .idle, held := fill 32 [] })
      (publish e (entry e s).held.toList (some number) s)
  else s

/-- A torn end without the restart of R44 (R43). -/
def tornEnd (g : GroupId) (s : State) : State :=
  let s1 := (indices 128).foldl (discardHeld g) s
  modGroup g (fun x => { x with torn := true, lastTorn := true, state := .idle }) (raise .groupTorn s1)

/-- The sweep number after a publish: from 65535 it goes to 1, never to 0 (R42 step 1). -/
def nextSweepNumber (n : Half) : Half := if n = 0xFFFF#16 then 1#16 else n + 1#16

/-- A group publish without the restart of R44 (R42). -/
def groupPublish (g : GroupId) (s : State) : State :=
  let number := nextSweepNumber (group g s).sweepNumber
  let s1 := (indices 128).foldl (publishHeld g number) s
  modGroup g (fun x =>
    { x with sweepNumber := number, lastTorn := false, lastPublish := s.timebase, state := .idle })
    (raise .groupPublished s1)

/-- A sweep start up to the point where every ENABLED member has been asked; with outstanding 0 it ends at once, torn
(R38). -/
def beginSweep (g : GroupId) (cls : JobClass) (s : State) : State :=
  let s1 := modGroup g (fun x => { x with state := .sweeping, torn := false, outstanding := 0 }) s
  let s2 := (indices 128).foldl (askMember g cls) s1
  if (group g s2).outstanding = 0 then tornEnd g s2 else s2

/-- The restart examined at every sweep end: with sweep-again set it is cleared and one URGENT sweep starts (R44). -/
def restartSweep (g : GroupId) (s : State) : State :=
  if (group g s).sweepAgain then
    beginSweep g .urgent (modGroup g (fun x => { x with sweepAgain := false }) s)
  else s

/-- A sweep start at an IDLE group (R38); a start that ends at once examines the restart as every end does. -/
def startSweep (g : GroupId) (cls : JobClass) (s : State) : State :=
  let s1 := beginSweep g cls s
  if (group g s1).state = .idle then restartSweep g s1 else s1

/-- The end of a sweep whose outstanding count has reached 0 (R42, R43, R44). -/
def endSweep (g : GroupId) (s : State) : State :=
  restartSweep g (if (group g s).torn then tornEnd g s else groupPublish g s)

/-- Ends the sweep if no member's refresh is outstanding (section 2.6). -/
def endIfNoneOutstanding (g : GroupId) (s : State) : State :=
  if (group g s).outstanding = 0 then endSweep g s else s

/-- The outstanding count is lowered by one; at 0 the sweep ends in the same event (R39, R40). -/
def lowerOutstanding (g : GroupId) (s : State) : State :=
  endIfNoneOutstanding g (modGroup g (fun x => { x with outstanding := x.outstanding - 1 }) s)

/-- A withdrawal: the sweep is torn, and the count lowered unless the member was HELD, which gave up its place with its completion
(R41). R21 step 5 says that a HELD member's withdrawal lowers it too; the model follows R41, to which R21 refers, and the relation
that R32 has the count keep (log entry 24). -/
def withdraw (g : GroupId) (wasHeld : Bool) (s : State) : State :=
  let s1 := modGroup g (fun x => { x with torn := true }) s
  if wasHeld then endIfNoneOutstanding g s1 else lowerOutstanding g s1

/-- A withdrawal for a grouped member; an ungrouped entry has no group to tell. -/
def withdrawMember (g : Option GroupId) (wasHeld : Bool) (s : State) : State :=
  match g with
  | some g => withdraw g wasHeld s
  | none => s

/-- A sweep request in the URGENT class (R36, R37): an IDLE group starts, a SWEEPING group sets sweep-again. -/
def requestSweep (g : GroupId) (s : State) : State :=
  match (group g s).state with
  | .idle => startSweep g .urgent s
  | .sweeping => modGroup g (fun x => { x with sweepAgain := true }) s

/-- The expiry of a group's due timer (R34, R35): the next due time, or the timer stops at period 0; then a ROUTINE sweep, or
the missed count. -/
def groupExpiry (g : GroupId) (due : Word) (s : State) : State :=
  let s1 := modGroup g (fun x =>
    { x with dueTime := if x.period = 0#16 then none else some (due + x.period.setWidth 32) }) s
  match (group g s1).state with
  | .idle => startSweep g .routine s1
  | .sweeping => modGroup g (fun x => { x with missed := satInc x.missed }) s1

/-- The group timer starts: the due time is the present timebase value and the first expiry is taken at once (R33, R34; log
entry 5). -/
def startGroupTimer (g : GroupId) (s : State) : State := groupExpiry g s.timebase s

/-- A member has left ENABLED or DRAINING: at member count 0 the group timer stops (R34). -/
def memberLeft (g : Option GroupId) (s : State) : State :=
  match g with
  | some g => if memberCount g s = 0 then modGroup g (fun x => { x with dueTime := none }) s else s
  | none => s

/-- An entry in DRAINING with no job left reaches DISABLED (R23); otherwise nothing changes. In DISABLED the write state is NONE,
whatever the last write's outcome was (R3; log entry 9). -/
def reachDisabled (e : EntryId) (s : State) : State :=
  let x := entry e s
  if x.enable = .draining ∧ x.refresh = .idle ∧ x.write ≠ .pending ∧ x.write ≠ .active then
    memberLeft x.cfg.groupId (modEntry e (fun y =>
      { y with enable := .disabled, validity := .none, write := .none, faultMark := false }) s)
  else s

end Sys2Proof.Machine
end

