-- ==== Sys2Proof/Machine/EntryCommands.lean ====
section
/-! DEFINITION. The entry and group commands: ENTRY_ENABLE, ENTRY_DISABLE, ENTRY_REFRESH, ENTRY_COMMIT, ENTRY_ACK_FAULT,
GROUP_SWEEP. Each has its owner's decision and then the row's meaning, a full write of the command word. -/

namespace Sys2Proof.Machine

/-- The checks of ENTRY_ENABLE on the stored configuration (R20). -/
def entryConfigValid (c : EntryConfig) : Bool :=
  1 ≤ c.length.toNat && c.length.toNat ≤ 32 && c.offsetWidth != 3#2 && c.mode != 3#2
    && (c.group == 0#4 || c.mode == 0#2) && (!c.verify || c.mode == 2#2)

/-- The entry's record when ENTRY_ENABLE is accepted (R20). -/
def enabledEntry (x : Entry) : Entry :=
  { x with
    enable := .enabled, validity := .none, publishSeq := 0#16, sweepNumber := 0#16, publishTime := 0#32, missed := 0#8
    published := fill 32 [], refresh := .idle, write := .none
    writeOvertaken := false, refreshAgain := false, writeAgain := false
    lastRefresh := .noneRecorded, lastWrite := .noneRecorded }

/-- The Refresh Scheduler is informed of an enabled entry (R20, R28, R34): an ungrouped entry with a period has its first
expiry at once; a grouped one whose group's member count went from 0 to 1 starts the group's timer. -/
def informScheduler (e : EntryId) (s : State) : State :=
  match (entry e s).cfg.groupId with
  | none => if (entry e s).cfg.period = 0#16 then s else entryExpiry e s.timebase s
  | some g => if memberCount g s = 1 ∧ (group g s).period ≠ 0#16 then startGroupTimer g s else s

/-- ENTRY_ENABLE at the entry (R20). -/
def entryEnable (e : EntryId) (s : State) : State × Answer :=
  if (entry e s).enable ≠ .disabled then (s, .refused .badState)
  else if entryConfigValid (entry e s).cfg = false then (s, .refused .badConfig)
  else (informScheduler e (modEntry e enabledEntry s), .accepted)

/-- Steps 1 to 3 of ENTRY_DISABLE (R21). -/
def drainingEntry (x : Entry) : Entry :=
  { x with enable := .draining, writeOvertaken := false, refreshAgain := false, writeAgain := false, dueTime := none }

/-- The removal request for a QUEUED refresh and the answer taken (R21 step 4, R22). -/
def removeQueuedRefresh (e : EntryId) (s : State) : State :=
  if (entry e s).refresh = .queued then
    match removeJob (entry e s).cfg.seg (.refresh e) s with
    | (s1, true) =>
      withdrawMember (entry e s).cfg.groupId false (modEntry e (fun x => { x with refresh := .idle }) s1)
    | (s1, false) => s1
  else s

/-- The removal request for a PENDING write and the answer taken (R21 step 4, R22). -/
def removePendingWrite (e : EntryId) (s : State) : State :=
  if (entry e s).write = .pending then
    match removeJob (entry e s).cfg.seg (.write e) s with
    | (s1, true) => modEntry e (fun x => { x with write := .none }) s1
    | (s1, false) => s1
  else s

/-- A HELD member withdraws (R21 step 5), its place in the outstanding count given up before (R41; log entry 24). -/
def withdrawHeld (e : EntryId) (s : State) : State :=
  if (entry e s).refresh = .held then
    withdrawMember (entry e s).cfg.groupId true
      (modEntry e (fun x => { x with refresh := .idle, held := fill 32 [] }) s)
  else s

/-- ENTRY_DISABLE at the entry (R21, R22). -/
def entryDisable (e : EntryId) (s : State) : State × Answer :=
  if (entry e s).enable ≠ .enabled then (s, .refused .badState)
  else
    (reachDisabled e (withdrawHeld e (removePendingWrite e (removeQueuedRefresh e (modEntry e drainingEntry s)))),
      .accepted)

/-- ENTRY_REFRESH at the entry (R31). -/
def entryRefresh (e : EntryId) (s : State) : State × Answer :=
  if (entry e s).enable ≠ .enabled then (s, .refused .badState)
  else if (entry e s).cfg.groupId ≠ none then (s, .refused .grouped)
  else demandRefresh e s

/-- ENTRY_COMMIT at the entry (R49, Table 3.1), with its effect on the refresh (R50). -/
def entryCommit (e : EntryId) (s : State) : State × Answer :=
  if (entry e s).enable ≠ .enabled then (s, .refused .badState)
  else if (entry e s).cfg.modeIsRead then (s, .refused .notWritable)
  else if refusesJobs (ctl (entry e s).cfg.seg s).state then (s, .refused .segmentDown)
  else
    match (entry e s).write with
    | .pending => (overtakeRefresh e s, .accepted)
    | .active => (overtakeRefresh e (modEntry e (fun x => { x with writeAgain := true }) s), .accepted)
    | .none | .done | .failed | .mismatch =>
      match requestWrite e s with
      | (s1, .admitted) => (overtakeRefresh e s1, .accepted)
      | (s1, a) => (s1, admissionToAnswer a)

/-- ENTRY_ACK_FAULT at the entry (R19). -/
def entryAckFault (e : EntryId) (s : State) : State × Answer :=
  (modEntry e (fun x => { x with faultMark := false }) s, .accepted)

/-- GROUP_SWEEP at the group record (R36). -/
def groupSweep (g : GroupId) (s : State) : State × Answer :=
  if memberCount g s = 0 then (s, .refused .badState) else (requestSweep g s, .accepted)

/-- The group a GROUP_SWEEP argument names: 1 to 15 (R147). -/
def groupArg (arg : Byte) : Option GroupId := if arg = 0#8 then none else indexOf 15 (arg.toNat - 1)

/-! ## Full writes of the command word with these codes (Table 9.1) -/

def commandEntryEnable (arg : Byte) (tag : Half) : State → State :=
  portCommand 0x01#8 arg tag (indexOf 128 arg.toNat) entryEnable

def commandEntryDisable (arg : Byte) (tag : Half) : State → State :=
  portCommand 0x02#8 arg tag (indexOf 128 arg.toNat) entryDisable

def commandEntryRefresh (arg : Byte) (tag : Half) : State → State :=
  portCommand 0x03#8 arg tag (indexOf 128 arg.toNat) entryRefresh

def commandEntryCommit (arg : Byte) (tag : Half) : State → State :=
  portCommand 0x04#8 arg tag (indexOf 128 arg.toNat) entryCommit

def commandEntryAckFault (arg : Byte) (tag : Half) : State → State :=
  portCommand 0x05#8 arg tag (indexOf 128 arg.toNat) entryAckFault

def commandGroupSweep (arg : Byte) (tag : Half) : State → State :=
  portCommand 0x10#8 arg tag (groupArg arg) groupSweep

/-- ENTRY_ENABLE (R20). -/
def execEntryEnable (arg : Byte) (tag : Half) (s : State) : Host.Outcome State Fault Refusal :=
  .next (commandEntryEnable arg tag s)

/-- ENTRY_DISABLE (R21). -/
def execEntryDisable (arg : Byte) (tag : Half) (s : State) : Host.Outcome State Fault Refusal :=
  .next (commandEntryDisable arg tag s)

/-- ENTRY_REFRESH (R31). -/
def execEntryRefresh (arg : Byte) (tag : Half) (s : State) : Host.Outcome State Fault Refusal :=
  .next (commandEntryRefresh arg tag s)

/-- ENTRY_COMMIT (R49). -/
def execEntryCommit (arg : Byte) (tag : Half) (s : State) : Host.Outcome State Fault Refusal :=
  .next (commandEntryCommit arg tag s)

/-- ENTRY_ACK_FAULT (R19). -/
def execEntryAckFault (arg : Byte) (tag : Half) (s : State) : Host.Outcome State Fault Refusal :=
  .next (commandEntryAckFault arg tag s)

/-- GROUP_SWEEP (R36). -/
def execGroupSweep (arg : Byte) (tag : Half) (s : State) : Host.Outcome State Fault Refusal :=
  .next (commandGroupSweep arg tag s)

end Sys2Proof.Machine
end

