-- ==== Sys2Proof/Machine/Signalling.lean ====
section
/-! DEFINITION. Two-wire signalling (chapter 5): the check code, the frames of jobs as their elements in wire order, the
outcome of a frame from what the other side gave, and what the part does with the lines in a frame. -/

namespace Sys2Proof.Machine

/-! ## Check code (R86) -/

/-- One shift of the running value; a 1 shifted out combines 07h. -/
def crcShift (v : Byte) : Byte := if v.msb then (v <<< 1) ^^^ 0x07#8 else v <<< 1

/-- The running value after one byte of the frame. -/
def crcByte (v b : Byte) : Byte :=
  crcShift (crcShift (crcShift (crcShift (crcShift (crcShift (crcShift (crcShift (v ^^^ b))))))))

/-! ## Frames (R52, R54, R87, R88) -/

/-- Direction bit of an address byte (R80). -/
inductive Direction where
  | w | r
  deriving DecidableEq, Repr

/-- The byte on the wire for an address: twice the address, plus 1 for R (R80). -/
def addressByte (a : DeviceAddr) (d : Direction) : Byte :=
  match d with
  | .w => a.setWidth 8 <<< 1
  | .r => a.setWidth 8 <<< 1 ||| 1#8

/-- The offset bytes of an entry: none at width 0, the low 8 bits at width 1, high byte first at width 2 (R87). -/
def offsetBytes (c : EntryConfig) : List Byte :=
  match c.offsetWidth.toNat with
  | 0 => []
  | 1 => [c.registerOffset.setWidth 8]
  | _ => [c.registerOffset.extractLsb' 8 8, c.registerOffset.setWidth 8]

/-- The refresh read and the verify read of an entry (Table 5.2, R54). -/
def readFrame (c : EntryConfig) : List Element :=
  (if c.offsetWidth = 0#2 then [Element.address (addressByte c.address .r) false]
    else .address (addressByte c.address .w) false :: (offsetBytes c).map Element.offset
      ++ [Element.address (addressByte c.address .r) true])
    ++ List.replicate c.length.toNat Element.readData ++ if c.checkCode then [Element.readCheck] else []

/-- The write frame of an entry with the bytes of the transmit buffer (Table 5.2, R52). -/
def writeFrame (c : EntryConfig) (bytes : List Byte) : List Element :=
  .address (addressByte c.address .w) false :: (offsetBytes c).map Element.offset ++ bytes.map Element.sendData
    ++ if c.checkCode then [Element.sendCheck] else []

/-- The frame of a DIRECT job by its kind (Table 5.3). -/
def slotFrame (k : Slot) (bytes : List Byte) : List Element :=
  match k.kind.toNat with
  | 0 => [.address (addressByte k.address .w) false]
  | 1 => .address (addressByte k.address .w) false :: bytes.map Element.sendData
      ++ if k.checkOption then [Element.sendCheck] else []
  | 2 => .address (addressByte k.address .r) false :: List.replicate k.readCount.toNat Element.readData
      ++ if k.checkOption then [Element.readCheck] else []
  | _ => .address (addressByte k.address .w) false :: bytes.map Element.sendData
      ++ .address (addressByte k.address .r) true :: List.replicate k.readCount.toNat Element.readData
      ++ if k.checkOption then [Element.readCheck] else []

/-- Data bytes a slot sends: its write count for WRITE and WRITE_READ, none for QUICK and READ (Table 7.2). -/
def slotSendCount (k : Slot) : Nat :=
  match k.kind.toNat with
  | 0 | 2 => 0
  | _ => k.writeCount.toNat

/-- The elements of the frame an active job has in use (R87, R88). -/
def jobFrame (a : ActiveJob) (tx : Vector Byte 32) (s : State) : List Element :=
  match a.job.ref, a.frame with
  | .write e, .writeFrame => writeFrame (entry e s).cfg (firstBytes (entry e s).cfg.length.toNat tx)
  | .refresh e, _ => readFrame (entry e s).cfg
  | .write e, _ => readFrame (entry e s).cfg
  | .direct k, _ => slotFrame (slot k s) (firstBytes (slotSendCount (slot k s)) tx)

/-! ## Running a frame (R82 to R86) -/

/-- How far a frame has come. -/
inductive FrameProgress where
  /-- the traffic given ends before the frame's last element; `next` is the element in progress -/
  | cut (next : Element)
  /-- a byte the part sent was refused -/
  | refused (result : Result)
  /-- the last element has passed; the check byte read, if any, agreed or not -/
  | whole (checkAgrees : Bool)
  deriving DecidableEq, Repr

/-- A frame as the wire gave it: how far it came, its counts and bytes, the acknowledges the part gave to the bytes it read
(R82), the whole byte periods that have passed and the running check value. -/
structure FrameRun where
  progress : FrameProgress
  acked : Nat
  received : List Byte
  given : List Bool
  passed : Nat
  crc : Byte
  deriving DecidableEq, Repr

/-- The result of a refused element (Table 5.1). -/
def refusalResult (e : Element) : Result :=
  match e with
  | .address _ false => .noDevice
  | .address _ true => .readRefused
  | .offset _ | .sendData _ | .sendCheck | .readData | .readCheck => .dataRefused

/-- The byte of an element that the part sends, the running check value given; none for one it reads. -/
def sentElementByte (e : Element) (crc : Byte) : Option Byte :=
  match e with
  | .address b _ | .offset b | .sendData b => some b
  | .sendCheck => some crc
  | .readData | .readCheck => none

/-- The running check value covers the element: every byte but the check byte itself (R86). -/
def coveredByCheck (e : Element) : Bool :=
  match e with
  | .sendCheck | .readCheck => false
  | .address _ _ | .offset _ | .sendData _ | .readData => true

/-- The acknowledge the part gives to a byte it reads, the elements after it given: ACK to every byte but the last of the frame,
which it refuses (R82). -/
def acknowledgesRead (after : List Element) : Bool := !after.isEmpty

/-- The byte of an element has passed with its acknowledge bit. -/
def FrameRun.pass (e : Element) (b : Byte) (r : FrameRun) : FrameRun :=
  { r with passed := r.passed + 1, crc := if coveredByCheck e then crcByte r.crc b else r.crc }

/-- The target acknowledged the element: a data byte sent counts (R83, R84). -/
def FrameRun.acknowledged (e : Element) (r : FrameRun) : FrameRun :=
  match e with
  | .sendData _ => { r with acked := r.acked + 1 }
  | .address _ _ | .offset _ | .sendCheck | .readData | .readCheck => r

/-- The part has read a byte and given it an acknowledge: a data byte is stored in order, the check byte is compared with the
running value (R82, R86). -/
def FrameRun.read (e : Element) (b : Byte) (ack : Bool) (r : FrameRun) : FrameRun :=
  match e with
  | .readCheck => { r with progress := .whole (b == r.crc), given := r.given ++ [ack] }
  | .address _ _ | .offset _ | .sendData _ | .sendCheck | .readData =>
    { r with received := r.received ++ [b], given := r.given ++ [ack] }

/-- Runs the elements of a frame against the traffic, from what has passed of it: each byte sent takes one acknowledge, each byte
read is taken from the bytes given and acknowledged by the part. -/
def runElements : List Element → Traffic → FrameRun → FrameRun
  | [], _, r => r
  | el :: rest, t, r =>
    match sentElementByte el r.crc with
    | some b =>
      match t.acks with
      | [] => { r with progress := .cut el }
      | true :: as => runElements rest { t with acks := as } ((r.pass el b).acknowledged el)
      | false :: _ => { r.pass el b with progress := .refused (refusalResult el) }
    | none =>
      match t.reads with
      | [] => { r with progress := .cut el }
      | b :: bs => runElements rest { t with reads := bs } ((r.pass el b).read el b (acknowledgesRead rest))

/-- A frame at its start: nothing has passed, the running value is 0 (R86). -/
def FrameRun.start : FrameRun :=
  { progress := .whole true, acked := 0, received := [], given := [], passed := 0, crc := 0#8 }

/-- A frame from its start. -/
def runFrame (els : List Element) (t : Traffic) : FrameRun := runElements els t .start

/-- The frame outcome with a given result (R84). -/
def FrameRun.outcome (r : FrameRun) (result : Result) : FrameOutcome :=
  { result := result, acked := BitVec.ofNat 6 r.acked, received := BitVec.ofNat 6 r.received.length, bytes := r.received }

/-- The result of a frame that ended of itself: a refusal, a check mismatch or OK; none where the traffic does not reach
the frame's end (R83, R84, R86). -/
def frameResult (r : FrameRun) : Option Result :=
  match r.progress with
  | .cut _ => none
  | .refused x => some x
  | .whole true => some .ok
  | .whole false => some .checkMismatch

/-- Traffic and the traffic after it. -/
def joinTraffic (t u : Traffic) : Traffic := { acks := t.acks ++ u.acks, reads := t.reads ++ u.reads }

/-! ## The byte in progress (R78, R81, R92) -/

/-- The first `n` bits of a byte, from the most significant, and 0 beyond them. -/
def topBits (n : Nat) (b : Byte) : Byte := b &&& (0xFF#8 <<< (8 - n))

/-- The byte whose first bits are those given, most significant first, and 0 beyond them. -/
def byteOfBits (bits : List Bool) : Byte :=
  (BitVec.ofBoolListBE ((bits ++ List.replicate 8 false).take 8)).setWidth 8

/-- A byte completed from the wire: its first `n` bits are those kept, the others those of the byte given (R81). -/
def completedByte (n : Nat) (kept b : Byte) : Byte := topBits n kept ||| (b &&& ~~~(0xFF#8 <<< (8 - n)))

/-- The byte in progress of a frame and the count of its bits, the bits so far given: of a byte the part sends it is the part's
own, of one it reads the wire's. At a stop none is in progress. -/
def byteNow (r : FrameRun) (bits : List Bool) : Byte × Nat :=
  match r.progress with
  | .cut e =>
    let n := min 8 bits.length
    match sentElementByte e r.crc with
    | some b => (topBits n b, n)
    | none => (byteOfBits bits, n)
  | .refused _ | .whole _ => (0#8, 0)

/-! ## Arbitration (R81) -/

/-- The last element of the frame is a byte the part reads. -/
def endsInRead (els : List Element) : Bool := els.getLast? == some .readData || els.getLast? == some .readCheck

/-- The part has released the data line at this point of its frame, to send a 1, to refuse the last byte it reads, or for a
repeated start or a stop: it compares there (R81). `els` is the frame up to where it ends, so that the byte refused and the stop
of an early end are among these points (R85); `passed` is how many bits of the byte in progress have passed already. -/
def comparesAt (els : List Element) (r : FrameRun) (passed : Nat) (p : LossPoint) : Bool :=
  match p with
  | .bit n =>
    match r.progress with
    | .cut e =>
      match sentElementByte e r.crc with
      | some b => decide (passed ≤ n.val) && b.getLsbD (7 - n.val)
      | none => false
    | .refused _ | .whole _ => false
  | .refusal =>
    match r.progress with
    | .whole _ => endsInRead els
    | .cut _ | .refused _ => false
  | .release =>
    match r.progress with
    | .cut (.address _ true) => passed == 0
    | .refused _ | .whole _ => true
    | .cut (.address _ false) | .cut (.offset _) | .cut (.sendData _) | .cut .sendCheck | .cut .readData | .cut .readCheck => false

/-- The byte in progress as the loss leaves it: the bits before the loss are the part's, which the winner also sent, and the bit
of the loss is a 0 (R81). A loss at a refusal or a release leaves no byte in progress, since none stands between its bits there;
R81 does not name this case, and it is the model's choice (log entry 31). -/
def byteAtLoss (r : FrameRun) (p : LossPoint) : Byte × Nat :=
  match p, r.progress with
  | .bit n, .cut e => (topBits n.val ((sentElementByte e r.crc).getD 0#8), n.val + 1)
  | .bit _, .refused _ | .bit _, .whole _ | .refusal, _ | .release, _ => (0#8, 0)

/-- The loss is sensed within an address byte (R81). -/
def lossInAddress (r : FrameRun) (p : LossPoint) : Bool :=
  match p, r.progress with
  | .bit _, .cut (.address _ _) => true
  | .bit _, .cut (.offset _) | .bit _, .cut (.sendData _) | .bit _, .cut .sendCheck | .bit _, .cut .readData
  | .bit _, .cut .readCheck | .bit _, .refused _ | .bit _, .whole _ | .refusal, _ | .release, _ => false

/-! ## The part as target (R91) -/

/-- The acknowledge the part gives to a data byte of a reception, numbered from 0: ACK to the first 32, a refusal to every later
one. -/
def acknowledges (n : Nat) : Bool := n < Config.receptionBytes

/-- Data bytes are received: the first 32 of the reception are stored, later ones mark it overran, and each is given its
acknowledge (R91). -/
def receiveBytes (bytes : List Byte) (c : Controller) : Controller :=
  let all := firstBytes c.rxCount c.rx ++ bytes
  { c with
    rx := fill 32 (all.take Config.receptionBytes), rxCount := min all.length Config.receptionBytes
    overran := c.overran || decide (Config.receptionBytes < all.length)
    acksGiven := c.acksGiven ++ (List.range bytes.length).map fun i => acknowledges (c.rxCount + i) }

/-! ## Lines (R75) -/

/-- What the part does with one line. The levels within a frame or a recovery pulse are below the steps of the table. -/
inductive LineDrive where
  | released
  | low
  | asInitiator
  | byRecovery
  deriving DecidableEq, Repr

/-- An address byte, before which a start or a repeated start stands (R80). -/
def isAddress (e : Element) : Bool :=
  match e with
  | .address _ _ => true
  | .offset _ | .sendData _ | .sendCheck | .readData | .readCheck => false

/-- What the part does with the data line in its frame, `n` bits of the byte in progress having passed. It sends each bit of its
own bytes, a 1 as the line released, and releases the line for the target's acknowledge; it leaves the line to the target for
the bits of a byte it reads, and gives that byte its acknowledge: low for ACK, released for NACK (R78, R82, R83). Start,
repeated start and stop are below the steps of the table. -/
def frameDataLine (els : List Element) (r : FrameRun) (n : Nat) : LineDrive :=
  match r.progress with
  | .refused _ | .whole _ => .asInitiator
  | .cut e =>
    match sentElementByte e r.crc with
    | some b =>
      if n = 0 ∧ isAddress e = true then .asInitiator
      else if n < 8 ∧ b.getLsbD (7 - n) = false then .low
      else .released
    | none => if n = 8 ∧ acknowledgesRead (els.drop (r.passed + 1)) = true then .low else .released

/-- The controller senses its lines in every state but OFFLINE and QUARANTINED (R75). -/
def sensesLines (c : Controller) : Bool := c.state != .offline && c.state != .quarantined

end Sys2Proof.Machine
end

