-- ==== Sys2Proof/Machine/Control.lean ====
section
/-! DEFINITION. The Segment Controllers' shared operations (chapter 6): results and the fault streak, retries, completions,
quarantine, recovery, stopping, what passes on the lines and what is driven, selection, and the end of RESETTING. -/

namespace Sys2Proof.Machine

/-! ## Small changes of one controller -/

/-- The active job is changed, if there is one. -/
def modActive (seg : SegId) (f : ActiveJob → ActiveJob) (s : State) : State :=
  modCtl seg (fun c => { c with active := c.active.map f }) s

/-- An outcome with no frame behind it: counts 0 and no bytes (Table 7.4). -/
def bareOutcome (r : Result) : FrameOutcome := { result := r, acked := 0#6, received := 0#6, bytes := [] }

/-! ## Completion (R107) -/

/-- The bytes read in an attempt with this result are discarded (R84, R107). -/
def discardsBytes (r : Result) : Bool := r == .lostArbitration || r == .holdTimeout || r == .lineStuck

/-- Bytes a completion carries (R107, R84): the bytes received, for a REFRESH job with OK, for a WRITE job those of its verify
read, for a DIRECT job; none where they are discarded. A WRITE job that ends OK without verify carries the bytes sent. -/
def completionBytes (a : ActiveJob) (o : FrameOutcome) (tx : Vector Byte 32) (s : State) : List Byte :=
  match a.job.ref with
  | .refresh _ => if o.result = .ok then o.bytes else []
  | .write e =>
    if a.frame = .verifyRead then (if discardsBytes o.result then [] else o.bytes)
    else if o.result = .ok then firstBytes (entry e s).cfg.length.toNat tx
    else []
  | .direct _ => if discardsBytes o.result then [] else o.bytes

/-- The job completes with an outcome and a count of attempts: the completion goes to its owner, at a slot in this same event, and
the controller lets go of the job (R107, R118). -/
def completeJob (seg : SegId) (o : FrameOutcome) (used : BitVec 4) (s : State) : State :=
  match (ctl seg s).active with
  | none => s
  | some a =>
    modCtl seg (fun c => { c with active := none, earlyEnd := none })
      (deliver
        { ref := a.job.ref, tag := a.job.tag, seg := seg, result := o.result
          bytes := completionBytes a o (ctl seg s).tx s, acked := o.acked, received := o.received
          attemptsUsed := used } s)

/-- Attempts used, as R104 counts them: the attempts field plus 1. -/
def attemptsPlusOne (a : ActiveJob) : BitVec 4 := a.job.attempts.setWidth 4 + 1#4

/-- The job completes with the outcome of an attempt (R104). -/
def completeAttempt (seg : SegId) (o : FrameOutcome) (s : State) : State :=
  match (ctl seg s).active with
  | none => s
  | some a => completeJob seg o (attemptsPlusOne a) s

/-! ## The end of STOPPING and of RESETTING (R112, R116, R151) -/

/-- The deliveries of a soft reset, in the order of R149; that the segments of a row take theirs in ascending order is the
model's choice (log entry 32). -/
def resetOrder : List Delivery :=
  (indices 8).map .controller ++ (indices 8).map .queue ++ [.mirrorAndScheduler, .slots, .listen, .events]

/-- The deliveries still to be taken, in order. -/
def deliveriesLeft (s : State) : List Delivery := resetOrder.drop (20 - s.undelivered.val)

/-- A soft reset in progress has reached this block. -/
def resetReached (d : Delivery) (s : State) : Bool := s.resetting && !(deliveriesLeft s).contains d

/-- RESETTING ends when all deliveries have been taken and every controller is OFFLINE; RESET_DONE is requested (R151). -/
def checkResettingEnd (s : State) : State :=
  if s.resetting = true ∧ s.undelivered = 0 ∧ ((indices 8).all fun q => (ctl q s).state == .offline) = true then
    raise .resetDone { s with resetting := false }
  else s

/-- A controller in OFFLINE: lines released and not sensed, streak 0, timers stopped (R92, R93, R103, R112, R116). -/
def offlineCtl (c : Controller) : Controller :=
  { c with
    state := .offline, streak := 0#4, active := none, busySince := none, recovery := none, own := .quiet, bus := .notKept
    traffic := noTraffic, holdSince := none, rxCount := 0, overran := false, acksGiven := []
    checkValue := 0#8, byteInProgress := 0#8, bitCount := 0, earlyEnd := none, addressExpected := false
    dropped := [], stopReleased := false }

/-- STOPPING ends: OFFLINE, and SEGMENT_STOPPED for SEGMENT_OFFLINE (R112). Once a soft reset has reached the controller its
queue is emptied instead, where its own delivery has not done so, and the Command Port is told (R116). -/
def endStopping (seg : SegId) (s : State) : State :=
  if resetReached (.controller seg) s then checkResettingEnd (emptyQueue seg (modCtl seg offlineCtl s))
  else raise .segmentStopped (modCtl seg offlineCtl s)

/-- Where the controller goes once its job is gone (R107): FOREIGN and RECEIVING stay, with a busy wait if jobs wait (R98);
STOPPING ends; RECOVERING goes on; otherwise IDLE. -/
def afterCompletion (seg : SegId) (s : State) : State :=
  match (ctl seg s).state with
  | .foreign | .receiving =>
    modCtl seg (fun c =>
      { c with busySince := if occupancy (queue seg s) = 0 then none else some s.timebase }) s
  | .stopping => endStopping seg s
  | .recovering => s
  | .offline | .quarantined => s
  | .idle | .active | .settle | .backoff => modCtl seg (fun c => { c with state := .idle, own := .quiet }) s

/-! ## Receptions cut short (R100, R139) -/

/-- A reception is cut: its reservation is released with it (R139). -/
def cutReception (seg : SegId) (s : State) : State := setReception seg none s

/-! ## Quarantine (R108) -/

/-- The segment is quarantined with a result: the active job completes with it, a reception is cut, the queue is flushed,
the lines are released. -/
def quarantine (seg : SegId) (o : FrameOutcome) (s : State) : State :=
  raise .segmentQuarantined <|
    modCtl seg (fun c =>
      { c with
        state := .quarantined, busySince := none, recovery := none, own := .quiet, bus := .notKept
        traffic := noTraffic, holdSince := none
        byteInProgress := 0#8, bitCount := 0, earlyEnd := none, addressExpected := false })
      (flush seg (cutReception seg (completeAttempt seg o s)))

/-- An attempt result is taken (R102, R103, R105): last result, streak, then quarantine at the threshold or on SEGMENT_FAULT;
otherwise the job goes on. -/
def takeResult (seg : SegId) (o : FrameOutcome) (goOn : State → State) (s : State) : State :=
  let s1 := modCtl seg (fun c => { c with lastResult := o.result, streak := streakAfter o.result c.streak }) s
  if (ctl seg s1).streak = (ctl seg s1).cfg.threshold ∨ o.result = .segmentFault then quarantine seg o s1
  else goOn s1

/-! ## Attempts and retries (R97, R104) -/

/-- The start of the frame in use is driven (R97): the bus is BUSY, the check value starts from 0. -/
def beginFrame (seg : SegId) (s : State) : State :=
  modActive seg (fun a => { a with phase := .running })
    (modCtl seg (fun c =>
      { c with
        state := .active, own := .frame s.timebase, bus := .busy, busySince := none, traffic := noTraffic
        holdSince := none, acksGiven := [], checkValue := 0#8, byteInProgress := 0#8, bitCount := 0 }) s)

/-- A job's next attempt is due with the bus FREE and both lines known high: it begins at once, or waits in IDLE for its
start report (R96, R97; log entry 11). -/
def beginDue (seg : SegId) (s : State) : State :=
  match (ctl seg s).active with
  | some a =>
    if a.started then beginFrame seg s
    else modActive seg (fun a => { a with phase := .due }) (modCtl seg (fun c => { c with state := .idle }) s)
  | none => s

/-- The job's next attempt becomes due: in FOREIGN and RECEIVING a busy wait begins (R98), with the bus FREE it begins. -/
def attemptDue (seg : SegId) (s : State) : State :=
  if inForeignFrame (ctl seg s).state then
    beginBusyWait seg (modActive seg (fun a => { a with phase := .due }) s)
  else beginDue seg s

/-- The backoff begins now (R104): BACKOFF, or FOREIGN and RECEIVING while a foreign frame is in progress; at backoff 0 it
ends in the same event. -/
def beginBackoff (seg : SegId) (s : State) : State :=
  if (ctl seg s).cfg.backoff = 0#8 then attemptDue seg s
  else
    modActive seg (fun a => { a with phase := .backoff s.timebase })
      (modCtl seg (fun c => { c with state := if inForeignFrame c.state then c.state else .backoff }) s)

/-- What a retryable result leads to (R104). -/
inductive RetryDecision where
  | retry
  | complete
  | cancel
  deriving DecidableEq, Repr

/-- The retry decision: none in STOPPING (R113); a pending abort turns a retry into CANCELLED (R115); otherwise the attempts
field against the retry limit. -/
def retryDecision (c : Controller) (a : ActiveJob) : RetryDecision :=
  if c.state = .stopping then .complete
  else if a.job.attempts.toNat < c.cfg.retryLimit.toNat then (if a.abortPending then .cancel else .retry)
  else .complete

/-- The attempts field is raised and the ended attempt's outcome kept. -/
def countAttempt (seg : SegId) (o : FrameOutcome) (s : State) : State :=
  modActive seg (fun a => { a with job := { a.job with attempts := a.job.attempts + 1#3 }, last := some o }) s

/-- A retryable result whose backoff begins in this event (R104). -/
def retryOrComplete (seg : SegId) (o : FrameOutcome) (s : State) : State :=
  match (ctl seg s).active with
  | none => s
  | some a =>
    match retryDecision (ctl seg s) a with
    | .retry => beginBackoff seg (countAttempt seg o s)
    | .complete => afterCompletion seg (completeAttempt seg o s)
    | .cancel => afterCompletion seg (completeJob seg (bareOutcome .cancelled) (attemptsPlusOne a) s)

/-! ## Recovery (R109, R110) -/

/-- A wait or a second failure of the recovery gives SEGMENT_FAULT, which quarantines the segment (R109). -/
def segmentFault (seg : SegId) (s : State) : State := takeResult seg (bareOutcome .segmentFault) id s

/-- The recovery stands at a phase, the pulse count given. -/
def recoverAt (seg : SegId) (phase : RecoveryPhase) (pulses : Nat) (s : State) : State :=
  modCtl seg (fun c => { c with recovery := some { phase := phase, pulses := pulses } }) s

/-- A successful recovery (R110): the bus is FREE; a held job's LINE_STUCK is decided now, otherwise the controller is
IDLE. -/
def recoverySuccess (seg : SegId) (s : State) : State :=
  let s1 := modCtl seg (fun c => { c with state := .idle, bus := .free, recovery := none }) s
  match (ctl seg s1).active with
  | none => s1
  | some _ => retryOrComplete seg (bareOutcome .lineStuck) s1

/-- Step 3 of recovery, with the levels after the data line is released (R109). `final` is the stop after the line-clear
hold. A clock line low there is waited for (log entry 12). -/
def recoveryStop (seg : SegId) (pulses : Nat) (final : Bool) (after : Lines) (s : State) : State :=
  if after.scl && after.sda then recoverySuccess seg s
  else if final then segmentFault seg s
  else if after.sda then recoverAt seg (.checkWait s.timebase) pulses s
  else if pulses < Config.recoveryPulses then recoverAt seg .pulsing pulses s
  else recoverAt seg (.lineClear s.timebase) pulses s

/-- Recovery with the clock line sensed high: to the stop where the data line is high, else to the next pulse or the
line-clear hold (R109 steps 1 and 2). -/
def recoveryCheck (seg : SegId) (pulses : Nat) (sda : Bool) (after : Lines) (s : State) : State :=
  if sda then recoveryStop seg pulses false after s
  else if pulses < Config.recoveryPulses then recoverAt seg .pulsing pulses s
  else recoverAt seg (.lineClear s.timebase) pulses s

/-- The controller enters RECOVERING and makes the check of step 1 (R109; log entry 12). -/
def beginRecovery (seg : SegId) (sense : RecoverySense) (s : State) : State :=
  let s1 := modCtl seg (fun c => { c with state := .recovering, bus := .busy, own := .quiet, busySince := none }) s
  if sense.check.scl then recoveryCheck seg 0 sense.check.sda sense.afterStop s1
  else recoverAt seg (.checkWait s.timebase) 0 s1

/-! ## The line check before a start (R97) -/

/-- The line check of a due attempt with the bus FREE: LINE_STUCK, a wait for the clock line, or the start. -/
def checkLines (seg : SegId) (lines : Lines) (sense : RecoverySense) (s : State) : State :=
  if !lines.sda then
    takeResult seg (bareOutcome .lineStuck)
      (fun s1 => beginRecovery seg sense
        (modActive seg (fun a => { a with phase := .recovering, last := some (bareOutcome .lineStuck) }) s1))
      (modCtl seg (fun c => { c with own := .quiet }) s)
  else if !lines.scl then
    modCtl seg (fun c => { c with state := .active, own := .startWait s.timebase }) s
  else beginFrame seg s

/-! ## The bus becomes FREE (R99) -/

/-- The stop of a foreign frame: the first of the four cases of R99 that applies. -/
def foreignEnds (seg : SegId) (s : State) : State :=
  let s1 := modCtl seg (fun c =>
    { c with state := .idle, bus := .free, busySince := none, addressExpected := false, byteInProgress := 0#8,
             bitCount := 0 }) s
  match (ctl seg s1).active with
  | none => s1
  | some a =>
    match a.phase with
    | .due => beginDue seg s1
    | .backoff _ => modCtl seg (fun c => { c with state := .backoff }) s1
    | .settle _ => modCtl seg (fun c => { c with state := .settle }) s1
    | .backoffPending => beginBackoff seg s1
    | .running | .recovering => s1

/-! ## What passes on the lines between the events of a segment (log entry 13) -/

/-- A clock-hold of the part's frame has lasted the hold limit: the attempt ends with HOLD_TIMEOUT (R79). -/
def holdExpired (c : Controller) (s : State) : Bool :=
  match c.holdSince with
  | some since => elapsed since c.cfg.holdLimit.toNat s
  | none => false

/-- The elements of the part's frame: that of the active job, or after a soft reset the one whose job was dropped (R96, R116). -/
def frameElements (seg : SegId) (s : State) : List Element :=
  match (ctl seg s).active with
  | some a => jobFrame a (ctl seg s).tx s
  | none => (ctl seg s).dropped

/-- The elements of the part's frame up to where it ends: all of them, or with an early end requested those up to the next byte
boundary after the request (R85). -/
def frameToEnd (seg : SegId) (s : State) : List Element :=
  match (ctl seg s).earlyEnd with
  | some n => (frameElements seg s).take n
  | none => frameElements seg s

/-- The part's frame as the wire has given it so far, and in the traffic that came since, up to where it ends (R82 to R86). -/
def frameSoFar (seg : SegId) (wire : Traffic) (s : State) : FrameRun :=
  runFrame (frameToEnd seg s) (joinTraffic (ctl seg s).traffic wire)

/-- The early end of a frame is requested, `passed` of its byte periods having passed: it ends at the next byte boundary, which
is that of the byte then in progress. A request that is already pending stands (R85). -/
def requestEarlyEnd (passed : Nat) (c : Controller) : Controller :=
  { c with earlyEnd := some (c.earlyEnd.getD (passed + 1)) }

/-- Bits of the byte in progress that have passed at the end of this traffic: those a tick found where nothing has passed since,
else none, since traffic ends at a byte boundary. -/
def bitsPassed (c : Controller) (wire : Traffic) : Nat := if wire = noTraffic then c.bitCount else 0

/-- A frame of the part has come further, at most to where it ends: the bytes read stand in the receive buffer and have been
given their acknowledges, the running check value and the byte in progress follow the wire (R82, R85, R86, R92), and a
clock-hold found now began since the last report, at the present timebase value (R79). A frame whose job a soft reset has
dropped leaves the receive buffer as it was (R92). -/
def frameAdvances (w : LineReport) (s : State) : State :=
  let r := frameSoFar w.seg w.traffic s
  modCtl w.seg (fun c =>
    { c with
      traffic := joinTraffic c.traffic w.traffic, holdSince := if w.clockHeld then some s.timebase else none
      rx := if c.active.isSome then fill 32 r.received else c.rx, acksGiven := r.given
      checkValue := r.crc, byteInProgress := (byteNow r w.bits).1, bitCount := (byteNow r w.bits).2 }) s

/-- A stop attempt has come further: once the clock line is sensed high the data line is released (R106). -/
def stopAttemptAdvances (w : LineReport) (s : State) : State :=
  modCtl w.seg (fun c => { c with stopReleased := c.stopReleased || !w.clockHeld }) s

/-- A reception has come further: its data bytes are taken, and the byte in progress follows the wire (R91). -/
def receptionAdvances (w : LineReport) (s : State) : State :=
  modCtl w.seg (fun c =>
    { receiveBytes w.traffic.reads c with byteInProgress := byteOfBits w.bits, bitCount := min 8 w.bits.length }) s

/-- A byte that the part observes has come further, an address byte or the byte of an arbitration loss; the bits kept from before
the loss stand, and those after it are the winner's (R81, R90). -/
def observedByteAdvances (w : LineReport) (s : State) : State :=
  modCtl w.seg (fun c =>
    { c with
      byteInProgress := completedByte c.bitCount c.byteInProgress (byteOfBits w.bits)
      bitCount := max c.bitCount (min 8 w.bits.length) }) s

/-- What a report tells is taken where the controller stands: in a frame of its own whose clock-hold has not reached the limit,
in the stop attempt after one, in a reception, or in a foreign byte that it samples: the address byte after a start, and
whatever byte was in progress when it lost arbitration (R81, R90). -/
def takeLineReport (s : State) (w : LineReport) : State :=
  match (ctl w.seg s).own with
  | .frame _ => if holdExpired (ctl w.seg s) s then s else frameAdvances w s
  | .stopAttempt _ => stopAttemptAdvances w s
  | .quiet | .startWait _ =>
    match (ctl w.seg s).state with
    | .receiving => receptionAdvances w s
    | .foreign =>
      if (ctl w.seg s).addressExpected = true ∨ (ctl w.seg s).bitCount ≠ 0 then observedByteAdvances w s else s
    | .offline | .idle | .active | .settle | .backoff | .recovering | .quarantined | .stopping => s

/-- What has passed on the segments' lines, as reports tell it, is taken. -/
def linesPass (reports : List LineReport) (s : State) : State := reports.foldl takeLineReport s

/-! ## Lines (R75) -/

/-- Drive of SCLn and SDAn by the controller's state (R75, R82, R97, R106, R109). A stop attempt keeps the clock line released
and the data line low until it has sensed the clock line high (R106). As target the part drives the data line low in the
acknowledge bit of the admitted address byte and of each data byte it acknowledges, and nothing else (R90, R91, R100). -/
def driven (seg : SegId) (s : State) : LineDrive × LineDrive :=
  let c := ctl seg s
  match c.state with
  | .offline | .quarantined | .idle | .settle | .backoff => (.released, .released)
  | .foreign => (.released, .released)
  | .receiving => (.released, if c.bitCount = 8 ∧ acknowledges c.rxCount = true then .low else .released)
  | .recovering =>
    match c.recovery with
    | some { phase := .lineClear _, .. } => (.low, .released)
    | some { phase := .checkWait _, .. } | some { phase := .pulseWait _, .. } | some { phase := .clearWait _, .. } =>
      (.released, .released)
    | some { phase := .pulsing, .. } | none => (.byRecovery, .byRecovery)
  | .active | .stopping =>
    match c.own with
    | .quiet | .startWait _ => (.released, .released)
    | .frame _ => (.asInitiator, frameDataLine (frameToEnd seg s) (frameSoFar seg noTraffic s) c.bitCount)
    | .stopAttempt _ => (.released, if c.stopReleased then .released else .low)

/-! ## Selection (R68, R69, R123) -/

/-- Frame of a job just selected (R96). -/
def firstFrame (r : JobRef) : FrameInUse :=
  match r with
  | .refresh _ => .refreshRead
  | .write _ => .writeFrame
  | .direct _ => .slotFrame

/-- The owner learns of the selection: a slot takes its start report within the event and the controller copies its write
bytes (R123); an entry's start report is sent to it (R15). -/
def reportStart (seg : SegId) (j : Job) (s : State) : State :=
  match j.ref with
  | .direct k =>
    modCtl seg (fun c => { c with tx := fill 32 (firstBytes (slotSendCount (slot k s)) (slot k s).data) })
      (modSlot k (fun x => { x with state := .active }) s)
  | .refresh _ | .write _ => send (.started j.ref) s

/-- A DIRECT job's first attempt may begin at once; an entry's waits for its start report (R96). -/
def startsAtOnce (r : JobRef) : Bool :=
  match r with
  | .direct _ => true
  | .refresh _ | .write _ => false

/-- The active job a selection makes of a job, its attempts field at 0 (R68). -/
def selectedJob (j : Job) : ActiveJob :=
  { job := { j with attempts := 0#3 }, frame := firstFrame j.ref, started := startsAtOnce j.ref, phase := .due, last := none
    abortPending := false }

/-- A selection: one event at the queue and the controller (R68). -/
def select (seg : SegId) (s : State) : State :=
  match arbiter (queue seg s) with
  | none => s
  | some (j, q) =>
    reportStart seg j (modCtl seg (fun c => { c with active := some (selectedJob j) }) (setQueue seg q s))

/-! ## The abort request of a slot (R115) -/

/-- The controller takes a slot's abort request according to where the job stands (R115). -/
def abortRequest (seg : SegId) (k : SlotId) (s : State) : State :=
  match (ctl seg s).active with
  | none => s
  | some a =>
    if a.job.ref = .direct k then
      match (ctl seg s).own, a.phase with
      | .frame _, _ =>
        modActive seg (fun a => { a with abortPending := true })
          (modCtl seg (requestEarlyEnd (frameSoFar seg noTraffic s).passed) s)
      | .stopAttempt _, _ => s
      | .quiet, .recovering =>
        afterCompletion seg (completeJob seg (bareOutcome .cancelled) (attemptsPlusOne a) s)
      | .startWait _, _ | .quiet, _ =>
        afterCompletion seg (completeJob seg (bareOutcome .cancelled) (a.job.attempts.setWidth 4) s)
    else s

end Sys2Proof.Machine
end

