-- ==== Sys2Proof/Machine/Listen.lean ====
section
/-! DEFINITION. The Listen Unit (chapter 8): the listen commands, the decision of address bytes, receptions, the capture ring
and its commands. -/

namespace Sys2Proof.Machine

/-! ## Listen and capture commands -/

/-- LISTEN_ENABLE at the entry (R132). -/
def listenEnable (i : ListenId) (s : State) : State × Answer :=
  if (listenEntry i s).enabled then (s, .refused .badState)
  else if (listenEntry i s).mask = 0#8 ∨ listenAction (listenEntry i s).action = none then (s, .refused .badConfig)
  else (modListen i (fun x => { x with enabled := true }) s, .accepted)

/-- LISTEN_DISABLE at the entry (R133). -/
def listenDisable (i : ListenId) (s : State) : State × Answer :=
  if (listenEntry i s).enabled then (modListen i (fun x => { x with enabled := false }) s, .accepted)
  else (s, .refused .badState)

/-- CAPTURE_POP (R141). -/
def capturePop (_ : Unit) (s : State) : State × Answer :=
  match s.ring with
  | [] => (s, .refused .empty)
  | _ :: rest => ({ s with ring := rest }, .accepted)

/-- CAPTURE_FLUSH (R142). -/
def captureFlush (_ : Unit) (s : State) : State × Answer := ({ s with ring := [] }, .accepted)

/-! ## Deciding an address byte (R134, R135) -/

/-- An enabled entry that listens on the segment at the address (R134). -/
def listensFor (seg : SegId) (address : DeviceAddr) (x : ListenEntry) : Bool :=
  x.enabled && x.mask.getLsbD seg.val && x.address == address

/-- The entry used: the lowest-indexed that matches (R134). -/
def entryUsed (seg : SegId) (address : DeviceAddr) (s : State) : Option ListenId :=
  (indices 16).find? fun i => listensFor seg address (listenEntry i s)

/-- The seven high bits of an address byte (R80). -/
def byteAddress (b : Byte) : DeviceAddr := b.extractLsb' 1 7

/-- The direction bit of an address byte; true is R (R80). -/
def byteIsRead (b : Byte) : Bool := b.getLsbD 0

/-- An action that needs a ring place (Table 8.2). -/
def needsPlace (a : ListenAction) : Bool :=
  match a with
  | .capture | .captureRefresh => true
  | .refresh | .sink => false

/-- An action that sends a device notice (Table 8.2). -/
def sendsNotice (a : ListenAction) : Bool :=
  match a with
  | .captureRefresh | .refresh => true
  | .capture | .sink => false

/-- An admitted byte opens a reception and the controller enters RECEIVING, no data byte received yet (R91, R100, R136). -/
def openReception (seg : SegId) (i : ListenId) (address : DeviceAddr) (action : ListenAction) (s : State) : State :=
  modCtl seg (fun c =>
    { c with state := .receiving, rx := fill 32 [], rxCount := 0, overran := false, acksGiven := [] })
    (setReception seg
      (some { listenIndex := i, address := address, action := action, reserved := needsPlace action }) s)

/-- A capture claim that finds no free place (R135). -/
def loseCapture (s : State) : State := raise .captureLost { s with lostCount := satInc s.lostCount }

/-- Table 8.3. -/
def decideAddress (seg : SegId) (byte : Byte) (s : State) : State :=
  match entryUsed seg (byteAddress byte) s with
  | none => s
  | some i =>
    match listenAction (listenEntry i s).action with
    | none => s
    | some action =>
      if byteIsRead byte then s
      else if needsPlace action = true ∧ freePlaces s = 0 then loseCapture s
      else openReception seg i (byteAddress byte) action s

/-- ADDRESS_BYTE_DECISION: an observed foreign address byte is decided at its eighth bit (R90, R134). Bits that have passed
already stand: after an arbitration loss within the byte they are the part's own and the bit it lost (R81). -/
def addressByteDecisionEvent (seg : SegId) (byte : Byte) (s : State) : State :=
  if (ctl seg s).state = .foreign ∧ (ctl seg s).addressExpected = true then
    let b := completedByte (ctl seg s).bitCount (ctl seg s).byteInProgress byte
    decideAddress seg b (modCtl seg (fun c => { c with addressExpected := false, byteInProgress := b, bitCount := 8 }) s)
  else s

/-! ## The end of a reception (R137, R138) -/

/-- The data bytes a reception has stored, in order (R91, R100). -/
def receivedBytes (c : Controller) : List Byte := firstBytes c.rxCount c.rx

/-- The capture record of a reception (Table 8.4). -/
def captureRecord (seg : SegId) (r : Reception) (s : State) : CaptureRecord :=
  { sequence := s.nextSequence, segment := seg, listenIndex := r.listenIndex, address := r.address
    length := BitVec.ofNat 6 (ctl seg s).rxCount, overran := (ctl seg s).overran, action := r.action
    arrivalTime := s.timebase, data := fill 32 (receivedBytes (ctl seg s)) }

/-- A reservation becomes a completed record at the tail of the ring (R137). -/
def completeRecord (rec : CaptureRecord) (s : State) : State :=
  raise .captureArrived { s with ring := s.ring ++ [rec], nextSequence := s.nextSequence + 1#16 }

/-- The device notice of a reception with at least one data byte: the low 7 bits of the first (R138). -/
def sendNotice (seg : SegId) (bytes : List Byte) (s : State) : State :=
  match bytes with
  | [] => s
  | b :: _ => { s with notices := s.notices ++ [{ segment := seg, subject := b.setWidth 7 }] }

/-- A reception's end at the Listen Unit (R137): the reservation is given up, a record completes where the action captures,
and a notice follows where it refreshes. -/
def endReception (seg : SegId) (r : Reception) (s : State) : State :=
  let s1 := setReception seg none s
  let s2 := if needsPlace r.action then completeRecord (captureRecord seg r s) s1 else s1
  if sendsNotice r.action then sendNotice seg (receivedBytes (ctl seg s)) s2 else s2

/-- RECEPTION_END: a stop or a repeated start ends a reception (R100, R137). `bytes` are the data bytes that came since the last
report of the segment's lines; each is received and given its acknowledge first (R91). -/
def receptionEndEvent (seg : SegId) (bytes : List Byte) (ending : ReceptionEnding) (s : State) : State :=
  match (ctl seg s).state, reception seg s with
  | .receiving, some r =>
    let s1 := endReception seg r (modCtl seg (receiveBytes bytes) s)
    match ending with
    | .stop => foreignEnds seg s1
    | .repeatedStart =>
      modCtl seg (fun c =>
        { c with state := .foreign, bus := .busy, addressExpected := true, byteInProgress := 0#8, bitCount := 0 }) s1
  | _, _ => s

/-! ## Full writes of the command word with these codes (Table 9.1) -/

def commandListenEnable (arg : Byte) (tag : Half) : State → State :=
  portCommand 0x40#8 arg tag (indexOf 16 arg.toNat) listenEnable

def commandListenDisable (arg : Byte) (tag : Half) : State → State :=
  portCommand 0x41#8 arg tag (indexOf 16 arg.toNat) listenDisable

def commandCapturePop (arg : Byte) (tag : Half) : State → State := portCommand 0x50#8 arg tag (some ()) capturePop

def commandCaptureFlush (arg : Byte) (tag : Half) : State → State := portCommand 0x51#8 arg tag (some ()) captureFlush

/-- LISTEN_ENABLE (R132). -/
def execListenEnable (arg : Byte) (tag : Half) (s : State) : Host.Outcome State Fault Refusal :=
  .next (commandListenEnable arg tag s)

/-- LISTEN_DISABLE (R133). -/
def execListenDisable (arg : Byte) (tag : Half) (s : State) : Host.Outcome State Fault Refusal :=
  .next (commandListenDisable arg tag s)

/-- CAPTURE_POP (R141). -/
def execCapturePop (arg : Byte) (tag : Half) (s : State) : Host.Outcome State Fault Refusal :=
  .next (commandCapturePop arg tag s)

/-- CAPTURE_FLUSH (R142). -/
def execCaptureFlush (arg : Byte) (tag : Half) (s : State) : Host.Outcome State Fault Refusal :=
  .next (commandCaptureFlush arg tag s)

/-- ADDRESS_BYTE_DECISION (R134). -/
def execAddressByteDecision (seg : SegId) (byte : Byte) (s : State) : Host.Outcome State Fault Refusal :=
  .next (outOfReset (addressByteDecisionEvent seg byte) s)

/-- RECEPTION_END (R137). -/
def execReceptionEnd (seg : SegId) (bytes : List Byte) (ending : ReceptionEnding) (s : State) :
    Host.Outcome State Fault Refusal :=
  .next (outOfReset (receptionEndEvent seg bytes ending) s)

end Sys2Proof.Machine
end

