-- ==== Sys2Proof/Machine/Reset.lean ====
section
/-! DEFINITION. Soft reset, pin reset, the timebase, and the due timers (R26, R27, R29, R35, R47, R116, R129, R144, R149,
R160). -/

namespace Sys2Proof.Machine

/-! ## Soft reset (section 9.2) -/

/-- Delivery 1 at a controller (R116): the active job is dropped without a completion; a frame of its own, whose elements and
byte periods passed are given, ends early through STOPPING, a stop attempt runs to its end in STOPPING, any other controller is
OFFLINE at once. -/
def softResetCtl (elements : List Element) (passed : Nat) (c : Controller) : Controller :=
  match c.own with
  | .frame _ =>
    { requestEarlyEnd passed c with
      state := .stopping, active := none, busySince := none, recovery := none, addressExpected := false, dropped := elements }
  | .stopAttempt _ =>
    { c with
      state := .stopping, active := none, earlyEnd := none, busySince := none, recovery := none
      addressExpected := false }
  | .quiet | .startWait _ => offlineCtl c

/-- Delivery 3 at an entry: the column "After soft reset" of Table 1.3 (R26), its due timer stopped (R47). -/
def softResetEntry (x : Entry) : Entry :=
  { x with
    enable := .disabled, validity := .none, refresh := .idle, write := .none
    writeOvertaken := false, refreshAgain := false, writeAgain := false, faultMark := false
    held := fill 32 [], dueTime := none }

/-- Delivery 4 at a group record: Table 2.3 (R47). -/
def softResetGroup (g : Group) : Group := { Group.reset with period := g.period }

/-- Delivery 6 at a listen entry: disabled, its fields kept (R144). -/
def softResetListen (x : ListenEntry) : ListenEntry := { x with enabled := false }

/-- The slot whose DIRECT job the controller holds, to be dropped, becomes FREE with the values of Table 7.5 (R116, R129). -/
def freeActiveSlot (seg : SegId) (s : State) : State :=
  match (ctl seg s).active with
  | none => s
  | some a =>
    match a.job.ref with
    | .direct k => modSlot k (fun _ => Slot.reset) s
    | .refresh _ | .write _ => s

/-- Delivery 1 (R116): the job is dropped, a reception is cut, and a controller that is OFFLINE at once has its queue emptied in
the same event. -/
def resetController (seg : SegId) (s : State) : State :=
  let stop := softResetCtl (frameElements seg s) (frameSoFar seg noTraffic s).passed
  let s1 := cutReception seg (modCtl seg stop (freeActiveSlot seg s))
  if (ctl seg s1).state = .offline then emptyQueue seg s1 else s1

/-- Deliveries 3 and 4, in one event (R26, R47). Reports and notices in flight are discarded with what they are about (log entry
8). -/
def resetMirror (s : State) : State :=
  { s with
    entries := tabulate 128 fun e => softResetEntry (entry e s)
    groups := tabulate 15 fun g => softResetGroup (group g s)
    reports := [], notices := [] }

/-- Delivery 6 (R144). -/
def resetListen (s : State) : State :=
  { s with
    receptions := tabulate 8 fun _ => none
    listen := tabulate 16 fun i => softResetListen (listenEntry i s)
    ring := [], nextSequence := 0#16, lostCount := 0#16 }

/-- A block takes the soft reset, each in one event (R149): R116, R73, R26 and R47, R129, R144, R153. -/
def takeDelivery (d : Delivery) (s : State) : State :=
  match d with
  | .controller seg => resetController seg s
  | .queue seg => emptyQueue seg s
  | .mirrorAndScheduler => resetMirror s
  | .slots => { s with slots := tabulate 8 fun _ => Slot.reset }
  | .listen => resetListen s
  | .events => { s with flags := 0#13 }

/-- The next delivery of a soft reset in progress, and with the last one the end of RESETTING where every controller is OFFLINE by
then (R149, R151). Nothing where none waits. -/
def nextDelivery (s : State) : State :=
  match deliveriesLeft s with
  | [] => s
  | d :: _ =>
    if s.resetting then checkResettingEnd (takeDelivery d { s with undelivered := s.undelivered - 1 }) else s

/-- The next deliveries, so many of them, with no event between them. -/
def nextDeliveries (n : Nat) (s : State) : State :=
  match n with
  | 0 => s
  | n + 1 => nextDeliveries n (nextDelivery s)

/-- SOFT_RESET at the Command Port (R149): RESETTING is entered, all deliveries wait, and so many of them follow at once. -/
def softReset (taken : Fin 21) (_ : Unit) (s : State) : State × Answer :=
  (nextDeliveries taken.val { s with resetting := true, undelivered := 20 }, .accepted)

/-- A full write of the command word with this code (Table 9.1). -/
def commandSoftReset (arg : Byte) (tag : Half) (taken : Fin 21) : State → State :=
  portCommand 0x7F#8 arg tag (some ()) (softReset taken)

/-- SOFT_RESET (R149), after what has passed on the segments' lines before it has been taken (log entry 13), with so many of its
deliveries before the next command (log entry 32). -/
def execSoftReset (arg : Byte) (tag : Half) (s : State) (reports : List LineReport := []) (taken : Fin 21 := 20) :
    Host.Outcome State Fault Refusal :=
  .next (commandSoftReset arg tag taken (outOfReset (linesPass reports) s))

/-! ## Pin reset and the timebase -/

/-- The assertion of RESETn (R160): every block at its pin-reset values. What waits outside the part is not the part's: the
queue of commands and the index of the free value stay (log entry 22). -/
def pinReset (s : State) : State := { State.reset with inReset := true, pending := s.pending, freeIndex := s.freeIndex }

/-- PIN_RESET (R160). -/
def execPinReset (s : State) : Host.Outcome State Fault Refusal := .next (pinReset s)

/-- PIN_RESET_RELEASE (R27, R160). -/
def execPinResetRelease (s : State) : Host.Outcome State Fault Refusal := .next { s with inReset := false }

/-- The timebase advances by one modulo 2^32 (R27), after what has passed on the segments' lines before it has been taken (log
entry 13). -/
def tick (reports : List LineReport) (s : State) : State :=
  let s1 := linesPass reports s
  { s1 with timebase := s1.timebase + 1#32 }

/-- TIMEBASE_TICK (R27); without reports nothing has passed on any segment. -/
def execTimebaseTick (s : State) (reports : List LineReport := []) : Host.Outcome State Fault Refusal :=
  .next (outOfReset (tick reports) s)

/-! ## Due timers -/

/-- An entry's due timer expires once its due time is reached (R28, R29). -/
def entryDueExpiryEvent (e : EntryId) (s : State) : State :=
  match (entry e s).dueTime with
  | some due => if (entry e s).enable = .enabled ∧ reached due s = true then entryExpiry e due s else s
  | none => s

/-- ENTRY_DUE_EXPIRY (R29). -/
def execEntryDueExpiry (e : EntryId) (s : State) : Host.Outcome State Fault Refusal :=
  .next (outOfReset (entryDueExpiryEvent e) s)

/-- A group's due timer expires once its due time is reached (R34, R35). -/
def groupDueExpiryEvent (g : GroupId) (s : State) : State :=
  match (group g s).dueTime with
  | some due => if reached due s then groupExpiry g due s else s
  | none => s

/-- GROUP_DUE_EXPIRY (R35). -/
def execGroupDueExpiry (g : GroupId) (s : State) : Host.Outcome State Fault Refusal :=
  .next (outOfReset (groupDueExpiryEvent g) s)

end Sys2Proof.Machine
end

