-- ==== Sys2Proof/Machine/SegmentCommands.lean ====
section
/-! DEFINITION. The segment commands: SEGMENT_ONLINE, SEGMENT_OFFLINE, SEGMENT_RESTORE (section 6.9). -/

namespace Sys2Proof.Machine

/-- The checks of SEGMENT_ONLINE on the stored configuration (R111). -/
def segConfigValid (c : SegConfig) : Bool :=
  c.speed != 3#2 && c.holdLimit != 0#8 && c.busyLimit != 0#8 && c.threshold != 0#4

/-- SEGMENT_ONLINE at the controller (R111, R77). -/
def segmentOnline (sense : SegmentSense) (seg : SegId) (s : State) : State × Answer :=
  if (ctl seg s).state ≠ .offline then (s, .refused .badState)
  else if segConfigValid (ctl seg s).cfg = false then (s, .refused .badConfig)
  else if sense.lines.scl && sense.lines.sda then
    (modCtl seg (fun c => { c with state := .idle, bus := .free }) s, .accepted)
  else (beginRecovery seg sense.recovery s, .accepted)

/-- A job ends FLUSHED with no frame in progress, because its segment stops: counts and attempts used 0, which the spec does
not give for an entry's job (Table 7.4's are a slot's; log entry 30). -/
def flushStopped (seg : SegId) (s : State) : State := completeJob seg (bareOutcome .flushed) 0#4 s

/-- A job between its attempts ends at once because its segment stops: with its last attempt's result, or FLUSHED where it has
made none, or where its write frame ended OK and its verify read has not run (Table 6.5). -/
def completeStopped (seg : SegId) (a : ActiveJob) (s : State) : State :=
  match a.last with
  | some o => if o.result = .ok then flushStopped seg s else completeJob seg o (attemptsPlusOne a) s
  | none => flushStopped seg s

/-- The active job at SEGMENT_OFFLINE (Table 6.5): a frame or stop attempt runs on; anything else completes at once. What the
FLUSHED completion of a WRITE job in SETTLE counts is the model's choice (flushStopped; log entry 30). -/
def stopActiveJob (seg : SegId) (s : State) : State :=
  match (ctl seg s).active with
  | none => s
  | some a =>
    match a.phase with
    | .running => s
    | .backoff _ | .backoffPending | .due => completeStopped seg a s
    | .settle _ => flushStopped seg s
    | .recovering => completeJob seg (bareOutcome .lineStuck) (attemptsPlusOne a) s

/-- A frame of the part, or its stop attempt, is on the wire. -/
def ownOnWire (w : OwnWire) : Bool :=
  match w with
  | .frame _ | .stopAttempt _ => true
  | .quiet | .startWait _ => false

/-- The controller in STOPPING: no busy wait, no recovery, nothing awaited; a start that was waiting is given up. -/
def stoppingCtl (c : Controller) : Controller :=
  { c with
    state := .stopping, busySince := none, recovery := none, addressExpected := false
    own := if ownOnWire c.own then c.own else .quiet }

/-- STOPPING ends in the same event where no job and no frame of the part is left (R112). -/
def endStoppingIfQuiet (seg : SegId) (s : State) : State :=
  if (ctl seg s).active = none ∧ ownOnWire (ctl seg s).own = false then endStopping seg s else s

/-- SEGMENT_OFFLINE at the controller (R112, R113). -/
def segmentOffline (seg : SegId) (s : State) : State × Answer :=
  match (ctl seg s).state with
  | .offline | .stopping => (s, .refused .badState)
  | .quarantined => (raise .segmentStopped (modCtl seg offlineCtl s), .accepted)
  | .idle | .foreign | .receiving | .active | .settle | .backoff | .recovering =>
    (endStoppingIfQuiet seg (stopActiveJob seg (modCtl seg stoppingCtl (cutReception seg (flush seg s)))), .accepted)

/-- SEGMENT_RESTORE at the controller (R114). -/
def segmentRestore (sense : RecoverySense) (seg : SegId) (s : State) : State × Answer :=
  if (ctl seg s).state ≠ .quarantined then (s, .refused .badState)
  else (beginRecovery seg sense (modCtl seg (fun c => { c with streak := 0#4 }) s), .accepted)

/-! ## Full writes of the command word with these codes (Table 9.1) -/

def commandSegmentOnline (arg : Byte) (tag : Half) (sense : SegmentSense) : State → State :=
  portCommand 0x20#8 arg tag (indexOf 8 arg.toNat) (segmentOnline sense)

def commandSegmentOffline (arg : Byte) (tag : Half) : State → State :=
  portCommand 0x21#8 arg tag (indexOf 8 arg.toNat) segmentOffline

def commandSegmentRestore (arg : Byte) (tag : Half) (sense : RecoverySense) : State → State :=
  portCommand 0x22#8 arg tag (indexOf 8 arg.toNat) (segmentRestore sense)

/-- SEGMENT_ONLINE (R111). -/
def execSegmentOnline (arg : Byte) (tag : Half) (sense : SegmentSense) (s : State) : Host.Outcome State Fault Refusal :=
  .next (commandSegmentOnline arg tag sense s)

/-- SEGMENT_OFFLINE (R112). -/
def execSegmentOffline (arg : Byte) (tag : Half) (s : State) : Host.Outcome State Fault Refusal :=
  .next (commandSegmentOffline arg tag s)

/-- SEGMENT_RESTORE (R114). -/
def execSegmentRestore (arg : Byte) (tag : Half) (sense : RecoverySense) (s : State) :
    Host.Outcome State Fault Refusal :=
  .next (commandSegmentRestore arg tag sense s)

end Sys2Proof.Machine
end

