-- ==== Sys2Proof/Machine/Slots.lean ====
section
/-! DEFINITION. The slot commands: SLOT_SUBMIT, SLOT_CANCEL, SLOT_RELEASE (chapter 7). -/

namespace Sys2Proof.Machine

/-- The descriptor checks of SLOT_SUBMIT (Table 7.3). -/
def descriptorValid (k : Slot) : Bool :=
  let writes := k.writeCount.toNat
  let reads := k.readCount.toNat
  match k.kind.toNat with
  | 0 => true
  | 1 => writes ≤ 32
  | 2 => 1 ≤ reads && reads ≤ 32
  | 3 => 1 ≤ writes && writes ≤ 32 && 1 ≤ reads && reads ≤ 32
  | _ => false

/-- SLOT_SUBMIT at the slot (R122). -/
def slotSubmit (k : SlotId) (s : State) : State × Answer :=
  if (slot k s).state ≠ .free then (s, .refused .badState)
  else if descriptorValid (slot k s) = false then (s, .refused .badConfig)
  else
    match requestAdmission (slot k s).seg { ref := .direct k, cls := .urgent, tag := none, attempts := 0#3 } s with
    | (s1, .admitted) =>
      (modSlot k (fun x =>
        { x with
          state := .submitted, result := .noneRecorded, acked := 0#6, received := 0#6, attemptsUsed := 0#4 }) s1,
        .accepted)
    | (s1, a) => (s1, admissionToAnswer a)

/-- SLOT_CANCEL at the slot (R125, R126, R127). -/
def slotCancel (k : SlotId) (s : State) : State × Answer :=
  match (slot k s).state with
  | .free => (s, .refused .badState)
  | .done => (s, .refused .tooLate)
  | .submitted =>
    (finishSlot k .cancelled 0#6 0#6 0#4 [] (removeJob (slot k s).seg (.direct k) s).1, .accepted)
  | .active =>
    if (slot k s).cancelPending then (s, .accepted)
    else (abortRequest (slot k s).seg k (modSlot k (fun x => { x with cancelPending := true }) s), .accepted)

/-- SLOT_RELEASE at the slot (R128). -/
def slotRelease (k : SlotId) (s : State) : State × Answer :=
  if (slot k s).state = .done then (modSlot k (fun x => { x with state := .free }) s, .accepted)
  else (s, .refused .badState)

/-- The slot-done summary: bit n is set while slot n is DONE (R128). -/
def slotDoneSummary (s : State) : Byte :=
  (indices 8).foldl (fun b k => if (slot k s).state = .done then b ||| (1#8 <<< k.val) else b) 0#8

/-! ## Full writes of the command word with these codes (Table 9.1) -/

def commandSlotSubmit (arg : Byte) (tag : Half) : State → State :=
  portCommand 0x30#8 arg tag (indexOf 8 arg.toNat) slotSubmit

def commandSlotCancel (arg : Byte) (tag : Half) : State → State :=
  portCommand 0x31#8 arg tag (indexOf 8 arg.toNat) slotCancel

def commandSlotRelease (arg : Byte) (tag : Half) : State → State :=
  portCommand 0x32#8 arg tag (indexOf 8 arg.toNat) slotRelease

/-- SLOT_SUBMIT (R122). -/
def execSlotSubmit (arg : Byte) (tag : Half) (s : State) : Host.Outcome State Fault Refusal :=
  .next (commandSlotSubmit arg tag s)

/-- SLOT_CANCEL (R125), after what has passed on the segments' lines before it has been taken (log entry 13). -/
def execSlotCancel (arg : Byte) (tag : Half) (s : State) (reports : List LineReport := []) :
    Host.Outcome State Fault Refusal :=
  .next (commandSlotCancel arg tag (outOfReset (linesPass reports) s))

/-- SLOT_RELEASE (R128). -/
def execSlotRelease (arg : Byte) (tag : Half) (s : State) : Host.Outcome State Fault Refusal :=
  .next (commandSlotRelease arg tag s)

end Sys2Proof.Machine
end

