-- ==== Sys2Proof/Machine/CommandPort.lean ====
section
/-! DEFINITION. The Command Port's check of the code (R147): the seventeen codes of Table 9.1, and a code that is none of
them. -/

namespace Sys2Proof.Machine

/-- The seventeen codes (Table 9.1). -/
def knownCodes : List Byte :=
  [0x01#8, 0x02#8, 0x03#8, 0x04#8, 0x05#8, 0x10#8, 0x20#8, 0x21#8, 0x22#8, 0x30#8, 0x31#8, 0x32#8, 0x40#8, 0x41#8,
    0x50#8, 0x51#8, 0x7F#8]

/-- A code that is not one of the seventeen is refused before every other check (R147). -/
def refuseUnknown (code arg : Byte) (tag : Half) (s : State) : State :=
  answerCommand code tag (.refused .unknownCommand) { s with command := commandWord code arg tag }

/-- The next free value of the lines is drawn (log entry 3). -/
def drawSense (s : State) : State := { s with freeIndex := s.freeIndex + 1 }

/-- A full write of the command word by its code. The two segment commands that sense their lines take a free value here; as
rows of their own they carry it (log entry 3). -/
def issueCommand (code arg : Byte) (tag : Half) (s : State) : State :=
  if s.inReset then s
  else
    match code.toNat with
    | 0x01 => commandEntryEnable arg tag s
    | 0x02 => commandEntryDisable arg tag s
    | 0x03 => commandEntryRefresh arg tag s
    | 0x04 => commandEntryCommit arg tag s
    | 0x05 => commandEntryAckFault arg tag s
    | 0x10 => commandGroupSweep arg tag s
    | 0x20 => commandSegmentOnline arg tag (Config.freeSense s.freeIndex) (drawSense s)
    | 0x21 => commandSegmentOffline arg tag s
    | 0x22 => commandSegmentRestore arg tag (Config.freeSense s.freeIndex).recovery (drawSense s)
    | 0x30 => commandSlotSubmit arg tag s
    | 0x31 => commandSlotCancel arg tag s
    | 0x32 => commandSlotRelease arg tag s
    | 0x40 => commandListenEnable arg tag s
    | 0x41 => commandListenDisable arg tag s
    | 0x50 => commandCapturePop arg tag s
    | 0x51 => commandCaptureFlush arg tag s
    | 0x7F => commandSoftReset arg tag 20 s
    | _ => refuseUnknown code arg tag s

/-- UNKNOWN_COMMAND (R147). -/
def execUnknownCommand (code arg : Byte) (tag : Half) (s : State) : Host.Outcome State Fault Refusal :=
  .next (issueCommand code arg tag s)

end Sys2Proof.Machine
end

