-- ==== Sys2Proof/Machine/Operands.lean ====
section
/-! DEFINITION. The register window (chapter 10): the address map, the layout of every word a host reads, and the kinds of
writable location. -/

namespace Sys2Proof.Machine

/-! ## Field codes (Table 10.10) -/

def EnableState.code : EnableState → BitVec 2
  | .disabled => 0#2
  | .enabled => 1#2
  | .draining => 2#2

def Validity.code : Validity → BitVec 2
  | .none => 0#2
  | .fresh => 1#2
  | .stale => 2#2

def RefreshActivity.code : RefreshActivity → BitVec 2
  | .idle => 0#2
  | .queued => 1#2
  | .active => 2#2
  | .held => 3#2

def WriteState.code : WriteState → BitVec 3
  | .none => 0#3
  | .pending => 1#3
  | .active => 2#3
  | .done => 3#3
  | .failed => 4#3
  | .mismatch => 5#3

def GroupState.code : GroupState → BitVec 1
  | .idle => 0#1
  | .sweeping => 1#1

def SlotState.code : SlotState → BitVec 2
  | .free => 0#2
  | .submitted => 1#2
  | .active => 2#2
  | .done => 3#2

def CtlState.code : CtlState → BitVec 4
  | .offline => 0#4
  | .idle => 1#4
  | .foreign => 2#4
  | .receiving => 3#4
  | .active => 4#4
  | .settle => 5#4
  | .backoff => 6#4
  | .recovering => 7#4
  | .quarantined => 8#4
  | .stopping => 9#4

def Result.code : Result → BitVec 4
  | .noneRecorded => 0#4
  | .ok => 1#4
  | .noDevice => 2#4
  | .dataRefused => 3#4
  | .readRefused => 4#4
  | .verifyMismatch => 5#4
  | .lostArbitration => 6#4
  | .checkMismatch => 7#4
  | .busBusy => 8#4
  | .lineStuck => 9#4
  | .holdTimeout => 10#4
  | .segmentFault => 11#4
  | .aborted => 12#4
  | .cancelled => 13#4
  | .flushed => 14#4
  | .segmentDown => 15#4

def CommandOutcome.code : CommandOutcome → BitVec 2
  | .noCommand => 0#2
  | .accepted => 1#2
  | .refused => 2#2

def Reason.code : Reason → BitVec 4
  | .none => 0#4
  | .unknownCommand => 1#4
  | .badIndex => 2#4
  | .badState => 3#4
  | .badConfig => 4#4
  | .notWritable => 5#4
  | .grouped => 6#4
  | .segmentDown => 7#4
  | .queueFull => 8#4
  | .tooLate => 9#4
  | .empty => 10#4
  | .resetting => 11#4

def AccessReason.code : AccessReason → BitVec 3
  | .none => 0#3
  | .unmapped => 1#3
  | .readOnly => 2#3
  | .partialWrite => 3#3
  | .resetting => 4#3
  | .locked => 5#3
  | .readMode => 6#3

/-- Action bit of the head window: 0 CAPTURE, 1 CAPTURE_REFRESH (Table 10.9). -/
def ListenAction.headBit : ListenAction → Bool
  | .capture => false
  | .captureRefresh => true
  | .refresh => false
  | .sink => false

/-! ## The address map (Table 10.2) -/

/-- Words of the global area (Table 10.3). -/
inductive GlobalWord where
  | part | timebase | command | result | flags | enables | accessRecord | accessCount | ringStatus | lostCount
  | slotDone | detailSelect | detail0 | detail1
  deriving DecidableEq, Repr

/-- Every mapped word of the window. -/
inductive Loc where
  | global (w : GlobalWord)
  | faultBitmap (k : Fin 4)
  | segConfig0 (q : SegId)
  | segConfig1 (q : SegId)
  | segStatus (q : SegId)
  | segQueue (q : SegId)
  /-- any word of group record 0, which has no group behind it -/
  | groupZero
  | groupPeriod (g : GroupId)
  | groupStatus (g : GroupId)
  | groupCounts (g : GroupId)
  | groupPublish (g : GroupId)
  | listenFields (i : ListenId)
  | listenEnable (i : ListenId)
  | slotDesc0 (k : SlotId)
  | slotDesc1 (k : SlotId)
  | slotStatus (k : SlotId)
  | slotData (k : SlotId) (w : Fin 16)
  | head0
  | head1
  | head2
  | headData (w : Fin 8)
  | entryConfig0 (e : EntryId)
  | entryConfig1 (e : EntryId)
  | entryStatus (e : EntryId)
  | entrySettle (e : EntryId)
  | published (e : EntryId) (w : Fin 8)
  | staging (e : EntryId) (w : Fin 8)
  deriving DecidableEq, Repr

/-- The global area, by word index (Table 10.3). -/
def globalLoc (w : Nat) : Option Loc :=
  match w with
  | 0 => some (.global .part)
  | 1 => some (.global .timebase)
  | 2 => some (.global .command)
  | 3 => some (.global .result)
  | 4 => some (.global .flags)
  | 5 => some (.global .enables)
  | 6 => some (.global .accessRecord)
  | 7 => some (.global .accessCount)
  | 8 => some (.global .ringStatus)
  | 9 => some (.global .lostCount)
  | 10 => some (.global .slotDone)
  | 11 => some (.global .detailSelect)
  | 12 => some (.global .detail0)
  | 13 => some (.global .detail1)
  | 16 => some (.faultBitmap 0)
  | 17 => some (.faultBitmap 1)
  | 18 => some (.faultBitmap 2)
  | 19 => some (.faultBitmap 3)
  | _ => none

/-- A segment block, by word offset (Table 10.5). -/
def segLoc (q : SegId) (w : Nat) : Option Loc :=
  match w with
  | 0 => some (.segConfig0 q)
  | 1 => some (.segConfig1 q)
  | 2 => some (.segStatus q)
  | 3 => some (.segQueue q)
  | _ => none

/-- A group record, by record number and word offset (Table 10.6, R32). -/
def groupLoc (r : Fin 16) (w : Nat) : Option Loc :=
  if h : r.val = 0 then some .groupZero
  else
    match w with
    | 0 => some (.groupPeriod ⟨r.val - 1, by omega⟩)
    | 1 => some (.groupStatus ⟨r.val - 1, by omega⟩)
    | 2 => some (.groupCounts ⟨r.val - 1, by omega⟩)
    | 3 => some (.groupPublish ⟨r.val - 1, by omega⟩)
    | _ => none

/-- A listen entry, by word offset (Table 10.7). -/
def listenLoc (i : ListenId) (w : Nat) : Option Loc :=
  match w with
  | 0 => some (.listenFields i)
  | 1 => some (.listenEnable i)
  | _ => none

/-- A slot record, by word offset (Table 10.8). -/
def slotLoc (k : SlotId) (w : Nat) : Option Loc :=
  match w with
  | 0 => some (.slotDesc0 k)
  | 1 => some (.slotDesc1 k)
  | 2 => some (.slotStatus k)
  | _ => none

/-- The capture head window, by word offset (Table 10.9). -/
def headLoc (w : Nat) : Option Loc :=
  match w with
  | 0 => some .head0
  | 1 => some .head1
  | 2 => some .head2
  | 3 => none
  | n + 4 => (indexOf 8 n).map Loc.headData

/-- An entry record, by word offset (Table 10.4). -/
def entryLoc (e : EntryId) (w : Nat) : Option Loc :=
  match w with
  | 0 => some (.entryConfig0 e)
  | 1 => some (.entryConfig1 e)
  | 2 => some (.entryStatus e)
  | 3 => some (.entrySettle e)
  | _ => none

/-- The word an address selects: A[13:2] (R155, Table 10.2); none where it is unmapped. -/
def locate (a : Addr) : Option Loc :=
  let w := a.toNat / 4
  if w < 0x0100 / 4 then globalLoc w
  else if w < 0x0200 / 4 then segLoc (Fin.ofNat 8 ((w - 0x0100 / 4) / 8)) (w % 8)
  else if w < 0x0300 / 4 then groupLoc (Fin.ofNat 16 ((w - 0x0200 / 4) / 4)) (w % 4)
  else if w < 0x0400 / 4 then listenLoc (Fin.ofNat 16 ((w - 0x0300 / 4) / 4)) (w % 4)
  else if w < 0x0500 / 4 then slotLoc (Fin.ofNat 8 ((w - 0x0400 / 4) / 8)) (w % 8)
  else if w < 0x0700 / 4 then some (.slotData (Fin.ofNat 8 ((w - 0x0500 / 4) / 16)) (Fin.ofNat 16 w))
  else if w < 0x0800 / 4 then headLoc (w - 0x0700 / 4)
  else if w < 0x1000 / 4 then entryLoc (Fin.ofNat 128 ((w - 0x0800 / 4) / 4)) (w % 4)
  else if w < 0x2000 / 4 then some (.published (Fin.ofNat 128 ((w - 0x1000 / 4) / 8)) (Fin.ofNat 8 w))
  else if w < 0x3000 / 4 then some (.staging (Fin.ofNat 128 ((w - 0x2000 / 4) / 8)) (Fin.ofNat 8 w))
  else none

/-! ## Layouts (Tables 10.3 to 10.9) -/

/-- One word of the fault bitmap: bit j of word k is entry 32k + j (R18). -/
def faultBitmapWord (k : Fin 4) (s : State) : Word :=
  (indices 32).foldl (fun w j =>
    if (entry ⟨32 * k.val + j.val, by omega⟩ s).faultMark then w ||| (1#32 <<< j.val) else w) 0#32

/-- The oldest completed record, as the head window shows it (R140). -/
def headRecord (s : State) : Option CaptureRecord := s.ring.head?

/-- A global word (Table 10.3). -/
def readGlobal (g : GlobalWord) (s : State) : Word :=
  match g with
  | .part => Config.partWord
  | .timebase => s.timebase
  | .command => s.command
  | .result =>
    field s.result.code 0 ||| field s.result.outcome.code 8 ||| field s.result.reason.code 10
      ||| bitField s.resetting 15 ||| field s.result.tag 16
  | .flags => field s.flags 0
  | .enables => field s.enables 0
  | .accessRecord =>
    bitField s.accessRecord.valid 0 ||| bitField s.accessRecord.isWrite 1 ||| field s.accessRecord.reason.code 4
      ||| field s.accessRecord.address 16
  | .accessCount => field s.accessCount 0
  | .ringStatus =>
    field (BitVec.ofNat 6 s.ring.length) 0 ||| field (BitVec.ofNat 4 (reservedCount s)) 8 ||| field s.nextSequence 16
  | .lostCount => field s.lostCount 0
  | .slotDone => field (slotDoneSummary s) 0
  | .detailSelect => field (BitVec.ofNat 7 s.detailSelect.val) 0
  | .detail0 => (entry s.detailSelect s).publishTime
  | .detail1 =>
    field (entry s.detailSelect s).missed 0 ||| field (entry s.detailSelect s).lastRefresh.code 8
      ||| field (entry s.detailSelect s).lastWrite.code 12

/-- Entry record word +0 (Table 10.4). -/
def readEntryConfig0 (c : EntryConfig) : Word :=
  field c.segment 0 ||| field c.address 3 ||| field c.offsetWidth 10 ||| field c.mode 12 ||| field c.group 14
    ||| field c.length 18 ||| bitField c.checkCode 24 ||| bitField c.verify 25

/-- Entry record word +8 (Table 10.4). -/
def readEntryStatus (x : Entry) : Word :=
  field x.publishSeq 0 ||| field x.validity.code 16 ||| field x.enable.code 18 ||| field x.refresh.code 20
    ||| field x.write.code 22 ||| bitField x.writeOvertaken 25 ||| bitField x.refreshAgain 26
    ||| bitField x.writeAgain 27 ||| bitField x.faultMark 28

/-- Group status word (Table 10.6, R45). -/
def readGroupStatus (g : Group) : Word :=
  field (BitVec.ofNat 8 g.outstanding) 0 ||| field g.state.code 8 ||| bitField g.torn 9 ||| bitField g.lastTorn 10
    ||| bitField g.sweepAgain 11 ||| field g.sweepNumber 16

/-- Slot status word (Table 10.8). -/
def readSlotStatus (k : Slot) : Word :=
  field k.state.code 0 ||| bitField k.cancelPending 2 ||| field k.result.code 4 ||| field k.acked 8
    ||| field k.received 16 ||| field k.attemptsUsed 24

/-- Word +0 of the capture head window (Table 10.9). -/
def readHead0 (r : CaptureRecord) : Word :=
  field r.sequence 0 ||| field (BitVec.ofNat 3 r.segment.val) 16 ||| field (BitVec.ofNat 4 r.listenIndex.val) 20
    ||| field r.address 24

/-- Word +4 of the capture head window (Table 10.9). -/
def readHead1 (r : CaptureRecord) : Word :=
  field r.length 0 ||| bitField r.overran 8 ||| bitField r.action.headBit 9

/-- The word a host read returns (R155; Tables 10.3 to 10.9). Bits that carry no field read 0. -/
def readLoc (l : Loc) (s : State) : Word :=
  match l with
  | .global g => readGlobal g s
  | .faultBitmap k => faultBitmapWord k s
  | .segConfig0 q =>
    field (ctl q s).cfg.speed 0 ||| field (ctl q s).cfg.retryLimit 4 ||| field (ctl q s).cfg.threshold 8
      ||| field (ctl q s).cfg.backoff 16
  | .segConfig1 q => field (ctl q s).cfg.holdLimit 0 ||| field (ctl q s).cfg.busyLimit 8
  | .segStatus q =>
    field (ctl q s).state.code 0 ||| field (ctl q s).streak 8 ||| field (ctl q s).lastResult.code 16
  | .segQueue q =>
    field (BitVec.ofNat 6 (queue q s).urgent.length) 0 ||| field (BitVec.ofNat 6 (queue q s).routine.length) 8
      ||| field (BitVec.ofNat 3 (queue q s).streak) 16
  | .groupZero => 0#32
  | .groupPeriod g => field (group g s).period 0
  | .groupStatus g => readGroupStatus (group g s)
  | .groupCounts g => field (group g s).missed 0 ||| field (BitVec.ofNat 8 (memberCount g s)) 16
  | .groupPublish g => (group g s).lastPublish
  | .listenFields i =>
    field (listenEntry i s).mask 0 ||| field (listenEntry i s).address 8 ||| field (listenEntry i s).action 16
  | .listenEnable i => bitField (listenEntry i s).enabled 0
  | .slotDesc0 k =>
    field (slot k s).segment 0 ||| field (slot k s).address 8 ||| field (slot k s).kind 16
      ||| bitField (slot k s).checkOption 20
  | .slotDesc1 k => field (slot k s).writeCount 0 ||| field (slot k s).readCount 8
  | .slotStatus k => readSlotStatus (slot k s)
  | .slotData k w => wordAt (slot k s).data w.val
  | .head0 => match headRecord s with | some r => readHead0 r | none => 0#32
  | .head1 => match headRecord s with | some r => readHead1 r | none => 0#32
  | .head2 => match headRecord s with | some r => r.arrivalTime | none => 0#32
  | .headData w => match headRecord s with | some r => wordAt r.data w.val | none => 0#32
  | .entryConfig0 e => readEntryConfig0 (entry e s).cfg
  | .entryConfig1 e => field (entry e s).cfg.registerOffset 0 ||| field (entry e s).cfg.period 16
  | .entryStatus e => readEntryStatus (entry e s)
  | .entrySettle e => field (entry e s).cfg.settleDelay 0 ||| field (entry e s).sweepNumber 16
  | .published e w => wordAt (entry e s).published w.val
  | .staging e w => wordAt (entry e s).staging w.val

/-- What a host read of an address returns: the word, or 0 where it is unmapped, and 0 while RESETn is asserted (R155, R157,
R160). -/
def hostReadValue (a : Addr) (s : State) : Word :=
  if s.inReset then 0#32
  else
    match locate a with
    | some l => readLoc l s
    | none => 0#32

/-! ## Kinds of writable location (R156) -/

inductive LocKind where
  | byteWritable
  | fullWord
  | readOnly
  deriving DecidableEq, Repr

/-- R156. -/
def GlobalWord.kind : GlobalWord → LocKind
  | .command | .flags | .enables | .accessRecord | .accessCount | .detailSelect => .fullWord
  | .part | .timebase | .result | .ringStatus | .lostCount | .slotDone | .detail0 | .detail1 => .readOnly

/-- R156. -/
def Loc.kind : Loc → LocKind
  | .global g => g.kind
  | .slotData _ _ | .staging _ _ => .byteWritable
  | .segConfig0 _ | .segConfig1 _ | .groupPeriod _ | .listenFields _ | .slotDesc0 _ | .slotDesc1 _ | .entryConfig0 _
  | .entryConfig1 _ | .entrySettle _ => .fullWord
  | .faultBitmap _ | .segStatus _ | .segQueue _ | .groupZero | .groupStatus _ | .groupCounts _ | .groupPublish _
  | .listenEnable _ | .slotStatus _ | .head0 | .head1 | .head2 | .headData _ | .entryStatus _ | .published _ _ =>
    .readOnly

/-- The word is a configuration word that is locked now (Table 10.1, row LOCKED). -/
def locked (l : Loc) (s : State) : Bool :=
  match l with
  | .entryConfig0 e | .entryConfig1 e | .entrySettle e => (entry e s).enable != .disabled
  | .slotDesc0 k | .slotDesc1 k | .slotData k _ => (slot k s).state != .free
  | .listenFields i => (listenEntry i s).enabled
  | .segConfig0 q | .segConfig1 q => (ctl q s).state != .offline
  | .global _ | .faultBitmap _ | .segStatus _ | .segQueue _ | .groupZero | .groupPeriod _ | .groupStatus _
  | .groupCounts _ | .groupPublish _ | .listenEnable _ | .slotStatus _ | .head0 | .head1 | .head2 | .headData _
  | .entryStatus _ | .published _ _ | .staging _ _ => false

/-- The staging buffer of an entry whose stored mode is READ (Table 10.1, row READ_MODE). -/
def readModeStaging (l : Loc) (s : State) : Bool :=
  match l with
  | .staging e _ => (entry e s).cfg.modeIsRead
  | _ => false

/-- Words whose writes are taken while RESETTING (R150). -/
def takenWhileResetting (l : Loc) : Bool := l == .global .command || l == .global .flags

/-- Table 10.1 for a host write: the reason of the first row that holds, or none where the write is taken. -/
def writeError (l : Option Loc) (be : BitVec 4) (s : State) : Option AccessReason :=
  match l with
  | none => some .unmapped
  | some l =>
    if l.kind = .readOnly then some .readOnly
    else if l.kind = .fullWord ∧ be ≠ 0xF#4 then some .partialWrite
    else if s.resetting = true ∧ takenWhileResetting l = false then some .resetting
    else if locked l s then some .locked
    else if readModeStaging l s then some .readMode
    else none

end Sys2Proof.Machine
end

