-- ==== Sys2Proof/Machine/HostAccess.lean ====
section
/-! DEFINITION. Host accesses (chapter 10): what a stored write of each word does, the decision of Table 10.1, and reads. -/

namespace Sys2Proof.Machine

/-! ## Stored writes -/

/-- Entry record word +0 (Table 10.4). -/
def storeEntryConfig0 (data : Word) (c : EntryConfig) : EntryConfig :=
  { c with
    segment := data.extractLsb' 0 3, address := data.extractLsb' 3 7, offsetWidth := data.extractLsb' 10 2
    mode := data.extractLsb' 12 2, group := data.extractLsb' 14 4, length := data.extractLsb' 18 6
    checkCode := data.getLsbD 24, verify := data.getLsbD 25 }

/-- Entry record word +4 (Table 10.4). -/
def storeEntryConfig1 (data : Word) (c : EntryConfig) : EntryConfig :=
  { c with registerOffset := data.extractLsb' 0 16, period := data.extractLsb' 16 16 }

/-- Segment block word +0 (Table 10.5). -/
def storeSegConfig0 (data : Word) (c : SegConfig) : SegConfig :=
  { c with
    speed := data.extractLsb' 0 2, retryLimit := data.extractLsb' 4 3, threshold := data.extractLsb' 8 4
    backoff := data.extractLsb' 16 8 }

/-- Segment block word +4 (Table 10.5). -/
def storeSegConfig1 (data : Word) (c : SegConfig) : SegConfig :=
  { c with holdLimit := data.extractLsb' 0 8, busyLimit := data.extractLsb' 8 8 }

/-- Listen entry word +0 (Table 10.7). -/
def storeListenFields (data : Word) (x : ListenEntry) : ListenEntry :=
  { x with mask := data.extractLsb' 0 8, address := data.extractLsb' 8 7, action := data.extractLsb' 16 3 }

/-- Slot record word +0 (Table 10.8). -/
def storeSlotDesc0 (data : Word) (x : Slot) : Slot :=
  { x with
    segment := data.extractLsb' 0 3, address := data.extractLsb' 8 7, kind := data.extractLsb' 16 3
    checkOption := data.getLsbD 20 }

/-- Slot record word +4 (Table 10.8). -/
def storeSlotDesc1 (data : Word) (x : Slot) : Slot :=
  { x with writeCount := data.extractLsb' 0 6, readCount := data.extractLsb' 8 6 }

/-- A stored group period (R33): a stopped timer of a group with members starts at a nonzero period, its first expiry at
once. -/
def storeGroupPeriod (g : GroupId) (period : Half) (s : State) : State :=
  let s1 := modGroup g (fun x => { x with period := period }) s
  if (group g s).dueTime = none ∧ 1 ≤ memberCount g s ∧ period ≠ 0#16 then startGroupTimer g s1 else s1

/-- A stored write of a global word (Table 10.3; R146, R152, R153, R158, R159). -/
def storeGlobal (g : GlobalWord) (data : Word) (s : State) : State :=
  match g with
  | .command => issueCommand (data.extractLsb' 0 8) (data.extractLsb' 8 8) (data.extractLsb' 16 16) s
  | .flags => { s with flags := s.flags &&& ~~~ data.extractLsb' 0 13 }
  | .enables => { s with enables := data.extractLsb' 0 13 }
  | .accessRecord => { s with accessRecord := { valid := false, isWrite := false, reason := .none, address := 0#14 } }
  | .accessCount => { s with accessCount := 0#16 }
  | .detailSelect => { s with detailSelect := ⟨(data.extractLsb' 0 7).toNat, (data.extractLsb' 0 7).isLt⟩ }
  | .part | .timebase | .result | .ringStatus | .lostCount | .slotDone | .detail0 | .detail1 => s

/-- A stored write of a mapped word (R155, R156). Bits that carry no field are ignored. -/
def storeLoc (l : Loc) (be : BitVec 4) (data : Word) (s : State) : State :=
  match l with
  | .global g => storeGlobal g data s
  | .segConfig0 q => modCtl q (fun c => { c with cfg := storeSegConfig0 data c.cfg }) s
  | .segConfig1 q => modCtl q (fun c => { c with cfg := storeSegConfig1 data c.cfg }) s
  | .groupPeriod g => storeGroupPeriod g (data.extractLsb' 0 16) s
  | .listenFields i => modListen i (storeListenFields data) s
  | .slotDesc0 k => modSlot k (storeSlotDesc0 data) s
  | .slotDesc1 k => modSlot k (storeSlotDesc1 data) s
  | .slotData k w => modSlot k (fun x => { x with data := storeLanes x.data w.val be data }) s
  | .entryConfig0 e => modEntry e (fun x => { x with cfg := storeEntryConfig0 data x.cfg }) s
  | .entryConfig1 e => modEntry e (fun x => { x with cfg := storeEntryConfig1 data x.cfg }) s
  | .entrySettle e => modEntry e (fun x => { x with cfg := { x.cfg with settleDelay := data.extractLsb' 0 8 } }) s
  | .staging e w => modEntry e (fun x => { x with staging := storeLanes x.staging w.val be data }) s
  | .faultBitmap _ | .segStatus _ | .segQueue _ | .groupZero | .groupStatus _ | .groupCounts _ | .groupPublish _
  | .listenEnable _ | .slotStatus _ | .head0 | .head1 | .head2 | .headData _ | .entryStatus _ | .published _ _ => s

/-! ## The access -/

/-- A host write of the word at an address (R155, R157): stored, or dropped whole as an access error. While RESETn is
asserted it changes nothing (R160). -/
def writeWord (l : Option Loc) (a : Addr) (be : BitVec 4) (data : Word) (s : State) : State :=
  if s.inReset then s
  else
    match l, writeError l be s with
    | some l, none => storeLoc l be data s
    | _, some r => accessError a true r s
    | none, none => s

/-- A host write by its address. -/
def hostWrite (a : Addr) (be : BitVec 4) (data : Word) (s : State) : State := writeWord (locate a) a be data s

/-- A host read by its address (R155, R157): the data lines take the word; an unmapped address is an access error. -/
def hostRead (a : Addr) (s : State) : State :=
  let s1 := { s with readData := hostReadValue a s }
  if s.inReset = false ∧ locate a = none then accessError a false .unmapped s1 else s1

/-! ## Addresses of the rows' words (Tables 10.2 and 10.3) -/

def stagingAddr (e : EntryId) (w : Fin 8) : Addr := BitVec.ofNat 14 (0x2000 + 32 * e.val + 4 * w.val)
def groupPeriodAddr (r : Fin 16) : Addr := BitVec.ofNat 14 (0x0200 + 16 * r.val)
def flagsAddr : Addr := 0x0010#14
def enablesAddr : Addr := 0x0014#14
def accessRecordAddr : Addr := 0x0018#14
def accessCountAddr : Addr := 0x001C#14

/-! ## The rows -/

/-- STAGING_BUFFER_WRITE (R48). -/
def execStagingBufferWrite (e : EntryId) (w : Fin 8) (be : BitVec 4) (data : Word) (s : State) :
    Host.Outcome State Fault Refusal :=
  .next (writeWord (some (.staging e w)) (stagingAddr e w) be data s)

/-- GROUP_PERIOD_WRITE (R33). Record 0 is read-only (R32). -/
def execGroupPeriodWrite (r : Fin 16) (be : BitVec 4) (data : Word) (s : State) : Host.Outcome State Fault Refusal :=
  .next (writeWord (groupLoc r 0) (groupPeriodAddr r) be data s)

/-- EVENT_FLAG_WRITE (R152). -/
def execEventFlagWrite (be : BitVec 4) (data : Word) (s : State) : Host.Outcome State Fault Refusal :=
  .next (writeWord (some (.global .flags)) flagsAddr be data s)

/-- EVENT_ENABLE_WRITE (R153). -/
def execEventEnableWrite (be : BitVec 4) (data : Word) (s : State) : Host.Outcome State Fault Refusal :=
  .next (writeWord (some (.global .enables)) enablesAddr be data s)

/-- ACCESS_ERROR_RECORD_CLEAR (R158). -/
def execAccessErrorRecordClear (be : BitVec 4) (data : Word) (s : State) : Host.Outcome State Fault Refusal :=
  .next (writeWord (some (.global .accessRecord)) accessRecordAddr be data s)

/-- ACCESS_ERROR_COUNT_CLEAR (R158). -/
def execAccessErrorCountClear (be : BitVec 4) (data : Word) (s : State) : Host.Outcome State Fault Refusal :=
  .next (writeWord (some (.global .accessCount)) accessCountAddr be data s)

/-- HOST_WRITE (R157). -/
def execHostWrite (a : Addr) (be : BitVec 4) (data : Word) (s : State) : Host.Outcome State Fault Refusal :=
  .next (hostWrite a be data s)

/-- UNMAPPED_READ (R157). A mapped address here is a plain read, which has no effect on any block (R155). -/
def execUnmappedRead (a : Addr) (s : State) : Host.Outcome State Fault Refusal := .next (hostRead a s)

end Sys2Proof.Machine
end

