-- ==== Sys2Proof/Machine/Reports.lean ====
section
/-! DEFINITION. Reports taken at their owners: job start reports, the completions of REFRESH and WRITE jobs, and device notices,
each as an event of its own (R15, R16, R24, R39, R55); and the row SLOT_COMPLETION (R124). -/

namespace Sys2Proof.Machine

/-! ## Reports in flight -/

/-- The entry a job belongs to, if an entry owns it (R61). -/
def JobRef.entry? (r : JobRef) : Option EntryId :=
  match r with
  | .refresh e | .write e => some e
  | .direct _ => none

/-- Kind and owner of the job a report is about. -/
def Report.ref (r : Report) : JobRef :=
  match r with
  | .started j => j
  | .completed c => c.ref

/-- A report that goes to an entry. -/
def reportsToEntry (e : EntryId) (r : Report) : Bool := r.ref.entry? == some e

/-- A report that goes to a slot. -/
def reportsToSlot (k : SlotId) (r : Report) : Bool := r.ref == .direct k

/-- An earlier FLUSHED completion of the same segment and group must be taken at the group first (R66; log entry 17). -/
def mustPrecede (c : Completion) (r : Report) : Bool :=
  match r with
  | .started _ => false
  | .completed d => c.result == .flushed && d.result == .flushed && c.tag != none && d.tag == c.tag && d.seg == c.seg

/-! ## Job start reports (R15, R51) -/

/-- A controller's active job has its start report taken: for a WRITE job the staging bytes are copied into the transmit
buffer in the same event (R51, R96). -/
def startTaken (e : EntryId) (r : JobRef) (s : State) : State :=
  let seg := (entry e s).cfg.seg
  match (ctl seg s).active with
  | none => s
  | some a =>
    if a.job.ref = r then
      modActive seg (fun a => { a with started := true })
        (match r with
          | .write _ =>
            modCtl seg (fun c =>
              { c with tx := fill 32 (firstBytes (entry e s).cfg.length.toNat (entry e s).staging) }) s
          | .refresh _ | .direct _ => s)
    else s

/-- The entry's field for the job goes to ACTIVE (R15). -/
def startedEntry (r : JobRef) (x : Entry) : Entry :=
  match r with
  | .refresh _ => { x with refresh := if x.refresh = .queued then .active else x.refresh }
  | .write _ => { x with write := if x.write = .pending then .active else x.write }
  | .direct _ => x

/-- START_REPORT: an entry takes the first report in flight to it, a start report (R15). -/
def startReportEvent (e : EntryId) (s : State) : State :=
  match splitAtFirst (reportsToEntry e) s.reports with
  | some (before, .started r, after) =>
    startTaken e r (modEntry e (startedEntry r) { s with reports := before ++ after })
  | some (_, .completed _, _) | none => s

/-! ## Refresh completions (R16, R23, R39, R40, R58) -/

/-- A refresh completion taken in DRAINING is discarded (R23): the activity becomes IDLE, a grouped member withdraws, and the
entry may reach DISABLED. -/
def refreshDrained (e : EntryId) (c : Completion) (s : State) : State :=
  reachDisabled e (withdrawMember c.tag false (modEntry e (fun x => { x with refresh := .idle }) s))

/-- An ungrouped refresh that met write-overtaken (R58). -/
def overtakenRefresh (e : EntryId) (c : Completion) (s : State) : State :=
  let s1 := if c.result = .ok then s else markFault e (makeStale e s)
  let again := (entry e s).refreshAgain
  let s2 := modEntry e (fun x =>
    { x with lastRefresh := c.result, writeOvertaken := false, refresh := .idle, refreshAgain := false }) s1
  (requestRefresh e (if again then .urgent else .routine) none s2).1

/-- An ungrouped refresh completion with write-overtaken clear (R16). -/
def plainRefresh (e : EntryId) (c : Completion) (s : State) : State :=
  let s1 := if c.result = .ok then publish e c.bytes none s else markFault e (makeStale e s)
  let again := (entry e s).refreshAgain
  let s2 := modEntry e (fun x => { x with lastRefresh := c.result, refresh := .idle, refreshAgain := false }) s1
  if again then (requestRefresh e .urgent none s2).1 else s2

/-- A member's refresh completion taken while it is ENABLED (R39, R40). -/
def memberRefresh (e : EntryId) (g : GroupId) (c : Completion) (s : State) : State :=
  if c.result = .ok then
    lowerOutstanding g (modEntry e (fun x =>
      { x with held := fill 32 (c.bytes.take x.cfg.length.toNat), refresh := .held, lastRefresh := .ok }) s)
  else
    lowerOutstanding g (modGroup g (fun x => { x with torn := true })
      (modEntry e (fun x => { x with refresh := .idle, lastRefresh := c.result }) (markFault e (makeStale e s))))

/-- A refresh completion at an ungrouped entry, by its enable state. -/
def takeRefresh (e : EntryId) (c : Completion) (s : State) : State :=
  match (entry e s).enable with
  | .enabled => if (entry e s).writeOvertaken then overtakenRefresh e c s else plainRefresh e c s
  | .draining => refreshDrained e c s
  | .disabled => s

/-- A refresh completion at a group member, by its enable state. -/
def takeMemberRefresh (e : EntryId) (g : GroupId) (c : Completion) (s : State) : State :=
  match (entry e s).enable with
  | .enabled => memberRefresh e g c s
  | .draining => refreshDrained e c s
  | .disabled => s

/-- REFRESH_COMPLETION: an entry takes the refresh completion of a job without a sweep tag; in DRAINING also one with a tag
(R16, R23; log entry 19). -/
def refreshCompletionEvent (e : EntryId) (s : State) : State :=
  match splitAtFirst (reportsToEntry e) s.reports with
  | some (before, .completed c, after) =>
    if c.ref = .refresh e ∧ (c.tag = none ∨ (entry e s).enable = .draining) ∧ before.any (mustPrecede c) = false then
      takeRefresh e c { s with reports := before ++ after }
    else s
  | some (_, .started _, _) | none => s

/-- MEMBER_REFRESH_COMPLETION: a member and its group take the completion of a job with a sweep tag, as one event (R39). -/
def memberRefreshCompletionEvent (e : EntryId) (s : State) : State :=
  match splitAtFirst (reportsToEntry e) s.reports with
  | some (before, .completed c, after) =>
    match c.tag with
    | none => s
    | some g =>
      if c.ref = .refresh e ∧ before.any (mustPrecede c) = false then
        takeMemberRefresh e g c { s with reports := before ++ after }
      else s
  | some (_, .started _, _) | none => s

/-! ## Write completions (R23, R55, R56, R59) -/

/-- The row of Table 3.2 a write completion falls under (R55). -/
def writeOutcome (r : Result) : WriteState :=
  match r with
  | .ok => .done
  | .verifyMismatch => .mismatch
  | _ => .failed

/-- The effects of a write completion before R56 and R59: publish, write state, last write result, fault mark and events
(R55). -/
def writeEffects (e : EntryId) (c : Completion) (s : State) : State :=
  let s1 := if writeOutcome c.result = .failed then s else publish e c.bytes none s
  let s2 := modEntry e (fun x => { x with write := writeOutcome c.result, lastWrite := c.result }) s1
  let s3 := if writeOutcome c.result = .done then s2 else markFault e s2
  let s4 := if c.result = .verifyMismatch then raise .verifyMismatch s3 else s3
  raise .writeDone s4

/-- The request write-again makes at a write completion, and its answer (R56). -/
def writeAgainRequest (e : EntryId) (s : State) : State :=
  match requestWrite e (modEntry e (fun x => { x with writeAgain := false }) s) with
  | (s1, .admitted) => s1
  | (s1, .full) => markFault e (modEntry e (fun x => { x with write := .failed }) s1)
  | (s1, .down) => markFault e (modEntry e (fun x => { x with write := .failed, lastWrite := .segmentDown }) s1)

/-- A write completion taken while the entry is ENABLED (R55, R56, R59). -/
def enabledWrite (e : EntryId) (c : Completion) (s : State) : State :=
  let again := (entry e s).writeAgain
  let s1 := writeEffects e c s
  if again then writeAgainRequest e s1
  else if (entry e s1).refresh = .queued then modEntry e (fun x => { x with writeOvertaken := false }) s1
  else s1

/-- WRITE_COMPLETION: an entry takes its write completion; in DRAINING it is discarded (R23, R55). -/
def writeCompletionEvent (e : EntryId) (s : State) : State :=
  match splitAtFirst (reportsToEntry e) s.reports with
  | some (before, .completed c, after) =>
    if c.ref = .write e then
      let s1 := { s with reports := before ++ after }
      match (entry e s).enable with
      | .enabled => enabledWrite e c s1
      | .draining => reachDisabled e (modEntry e (fun x => { x with write := .none }) s1)
      | .disabled => s1
    else s
  | some (_, .started _, _) | none => s

/-! ## Slot completions (R124) -/

/-- SLOT_COMPLETION: a slot takes the completion of its DIRECT job, where one is in flight, and enters DONE (R124). The part's own
events hand a DIRECT job's completion to its slot themselves (`deliver`; R118), and then nothing is left to take (log entry 7). -/
def slotCompletionEvent (k : SlotId) (s : State) : State :=
  match splitAtFirst (reportsToSlot k) s.reports with
  | some (before, .completed c, after) =>
    finishSlot k c.result c.acked c.received c.attemptsUsed c.bytes { s with reports := before ++ after }
  | some (_, .started _, _) | none => s

/-! ## Device notices (R24, R37) -/

/-- An ENABLED entry on the notice's segment at its subject address (R24). -/
def noticeMatches (n : Notice) (x : Entry) : Bool :=
  x.enable == .enabled && x.cfg.seg == n.segment && x.cfg.address == n.subject

/-- Each matching entry goes from FRESH to STALE (R24). -/
def noticeStales (n : Notice) (s : State) (e : EntryId) : State :=
  if noticeMatches n (entry e s) then makeStale e s else s

/-- Each matching ungrouped entry has an URGENT refresh arranged (R24). -/
def noticeRefreshes (n : Notice) (s : State) (e : EntryId) : State :=
  if noticeMatches n (entry e s) = true ∧ (entry e s).cfg.groupId = none then (demandRefresh e s).1 else s

/-- A group with at least one matching ENABLED member receives one sweep request (R24, R37). -/
def noticeSweeps (n : Notice) (s : State) (g : GroupId) : State :=
  if (indices 128).any (fun e => noticeMatches n (entry e s) && (entry e s).cfg.groupId == some g) then requestSweep g s
  else s

/-- A device notice at the Mirror Table: entries in ascending order, then groups in ascending order (R24). -/
def takeNotice (n : Notice) (s : State) : State :=
  (indices 15).foldl (noticeSweeps n)
    ((indices 128).foldl (noticeRefreshes n) ((indices 128).foldl (noticeStales n) s))

/-- DEVICE_NOTICE: the Mirror Table takes the oldest notice in flight (R24, R138). -/
def deviceNoticeEvent (s : State) : State :=
  match s.notices with
  | [] => s
  | n :: rest => takeNotice n { s with notices := rest }

/-! ## The rows -/

/-- START_REPORT (R15). -/
def execStartReport (e : EntryId) (s : State) : Host.Outcome State Fault Refusal :=
  .next (outOfReset (startReportEvent e) s)

/-- REFRESH_COMPLETION (R16). -/
def execRefreshCompletion (e : EntryId) (s : State) : Host.Outcome State Fault Refusal :=
  .next (outOfReset (refreshCompletionEvent e) s)

/-- MEMBER_REFRESH_COMPLETION (R39). -/
def execMemberRefreshCompletion (e : EntryId) (s : State) : Host.Outcome State Fault Refusal :=
  .next (outOfReset (memberRefreshCompletionEvent e) s)

/-- WRITE_COMPLETION (R55). -/
def execWriteCompletion (e : EntryId) (s : State) : Host.Outcome State Fault Refusal :=
  .next (outOfReset (writeCompletionEvent e) s)

/-- SLOT_COMPLETION (R124). -/
def execSlotCompletion (k : SlotId) (s : State) : Host.Outcome State Fault Refusal :=
  .next (outOfReset (slotCompletionEvent k) s)

/-- DEVICE_NOTICE (R24). -/
def execDeviceNotice (s : State) : Host.Outcome State Fault Refusal := .next (outOfReset deviceNoticeEvent s)

end Sys2Proof.Machine
end

