-- ==== Sys2Proof/Machine/SegmentEvents.lean ====
section
/-! DEFINITION. The events of a Segment Controller and its lines: selection, attempts, frames, timeouts, delays, foreign
frames and recovery (chapter 6). An event whose condition does not hold does not take place and changes nothing (log
entry 1). -/

namespace Sys2Proof.Machine

/-! ## Selection and the start of attempts -/

/-- SELECTION: an IDLE controller without a job takes the job the arbiter chooses (R68). -/
def selectionEvent (seg : SegId) (s : State) : State :=
  if (ctl seg s).state = .idle ∧ (ctl seg s).active = none then select seg s else s

/-- A controller that may begin an attempt: its job's attempt is due, its start report taken, no frame or wait of its own,
the bus FREE (R96, R97). -/
def mayBegin (c : Controller) : Bool :=
  (c.state == .idle || c.state == .backoff || c.state == .settle) && c.bus == .free && c.own == .quiet
    && match c.active with
      | some a => a.started && a.phase == .due
      | none => false

/-- ATTEMPT_BEGIN (R97). -/
def attemptBeginEvent (seg : SegId) (lines : Lines) (sense : RecoverySense) (s : State) : State :=
  if mayBegin (ctl seg s) then checkLines seg lines sense s else s

/-- CLOCK_LINE_SENSED_HIGH: the clock line rises within the hold limit while a start waits for it, and the line check is
made again (R97). -/
def clockLineSensedHighEvent (seg : SegId) (sda : Bool) (sense : RecoverySense) (s : State) : State :=
  match (ctl seg s).own with
  | .startWait since =>
    if (ctl seg s).state = .active ∧ elapsed since (ctl seg s).cfg.holdLimit.toNat s = false then
      checkLines seg { scl := true, sda := sda } sense s
    else s
  | .quiet | .frame _ | .stopAttempt _ => s

/-! ## The end of the part's own frame -/

/-- The signalling after a frame of the part has ended with its stop: nothing of its own on the wire, the bus FREE, the
bytes read in the receive buffer and given their acknowledges (R77, R82, R84). -/
def closeFrame (seg : SegId) (r : FrameRun) (s : State) : State :=
  modCtl seg (fun c =>
    { c with
      own := .quiet, bus := .free, traffic := noTraffic, holdSince := none, rx := fill 32 r.received
      acksGiven := r.given, checkValue := r.crc, byteInProgress := 0#8, bitCount := 0, earlyEnd := none }) s

/-- The attempt result of a frame that ended OK: a verify read is compared with the transmit buffer (R54). -/
def comparedResult (a : ActiveJob) (r : FrameRun) (tx : Vector Byte 32) (s : State) : Result :=
  match a.job.ref, a.frame with
  | .write e, .verifyRead =>
    if r.received = firstBytes (entry e s).cfg.length.toNat tx then .ok else .verifyMismatch
  | _, _ => .ok

/-- The verify read becomes due: its attempts count from 0 (R54). The last attempt's outcome stays that of the write frame
(R96). -/
def verifyDue (seg : SegId) (s : State) : State :=
  modActive seg (fun a =>
    { a with frame := .verifyRead, phase := .due, job := { a.job with attempts := 0#3 } }) s

/-- The settle delay begins after a write frame with this outcome; a delay of 0 ends in the same event (R53, R96). -/
def beginSettle (seg : SegId) (delay : Byte) (o : FrameOutcome) (s : State) : State :=
  let s1 := modActive seg (fun a => { a with last := some o }) s
  if delay = 0#8 then beginDue seg (verifyDue seg s1)
  else
    modActive seg (fun a => { a with phase := .settle s.timebase }) (modCtl seg (fun c => { c with state := .settle }) s1)

/-- The settle delay that follows a write frame that ended OK: that of the entry where verify is on (R52, R53). -/
def settleAfter (a : ActiveJob) (s : State) : Option Byte :=
  match a.job.ref, a.frame with
  | .write e, .writeFrame => if (entry e s).cfg.verify then some (entry e s).cfg.settleDelay else none
  | _, _ => none

/-- What follows an attempt result that did not quarantine the segment (R102, R113). In STOPPING a verified write frame that
ended OK completes FLUSHED, with the counts of that frame and its attempts used (R107). -/
def continueAfter (seg : SegId) (a : ActiveJob) (o : FrameOutcome) (s : State) : State :=
  match o.result with
  | .ok =>
    match settleAfter a s with
    | none => afterCompletion seg (completeAttempt seg o s)
    | some delay =>
      if (ctl seg s).state = .stopping then afterCompletion seg (completeAttempt seg { o with result := .flushed } s)
      else beginSettle seg delay o s
  | .checkMismatch => retryOrComplete seg o s
  | _ => afterCompletion seg (completeAttempt seg o s)

/-- The frame's own result at its own end (R84): a refusal ends it anywhere, the last element only where no early end is to come
before that (R85). -/
def ownResult (seg : SegId) (r : FrameRun) (s : State) : Option Result :=
  match r.progress with
  | .whole _ => if frameToEnd seg s = frameElements seg s then frameResult r else none
  | .cut _ | .refused _ => frameResult r

/-- FRAME_END: the part's frame ends with its own outcome (R84), which the controller classifies (R102). With an early end
pending that is a byte refused up to the next byte boundary, or the frame's own stop where that boundary is its last: the stop
has come before the request, and the abort request finds its job completed, or cancels its retry (R85, R115; FRAME_ENDED_EARLY
is the other order, log entry 21). In a soft reset's STOPPING the frame belongs to no job, and the controller goes OFFLINE with
its end (R116). A frame whose clock-hold has lasted the hold limit ends with HOLD_TIMEOUT instead (R79). -/
def frameEndEvent (seg : SegId) (wire : Traffic) (s : State) : State :=
  match (ctl seg s).own with
  | .frame _ =>
    if holdExpired (ctl seg s) s then s
    else
      let r := frameSoFar seg wire s
      match ownResult seg r s with
      | none => s
      | some result =>
        match (ctl seg s).active with
        | none => endStopping seg s
        | some a =>
          let final := if result = .ok then comparedResult a r (ctl seg s).tx s else result
          takeResult seg (r.outcome final) (continueAfter seg a (r.outcome final)) (closeFrame seg r s)
  | .quiet | .startWait _ | .stopAttempt _ => s

/-- The result of a frame ended early at the byte boundary it has reached: a byte refused gives its own, otherwise it is ABORTED,
without a check comparison; none before that boundary (R85, R115). -/
def earlyResult (r : FrameRun) : Option Result :=
  match r.progress with
  | .cut _ => none
  | .refused result => some result
  | .whole _ => some .aborted

/-- FRAME_ENDED_EARLY: a pending early-end request, taken before the frame's own end, ends the frame with a stop at the next
byte boundary after the request, the last one included, and only there (R85; log entry 21). The DIRECT job completes ABORTED
(R115); in a soft reset's STOPPING there is no job (R116). A byte refused up to that boundary gives its own result, and so does
a clock-hold that has lasted the hold limit. -/
def frameEndedEarlyEvent (seg : SegId) (wire : Traffic) (s : State) : State :=
  match (ctl seg s).own with
  | .frame _ =>
    let r := frameSoFar seg wire s
    if (ctl seg s).earlyEnd.isSome = true ∧ holdExpired (ctl seg s) s = false then
      match earlyResult r with
      | none => s
      | some result =>
        match (ctl seg s).active with
        | none => endStopping seg s
        | some a => takeResult seg (r.outcome result) (continueAfter seg a (r.outcome result)) (closeFrame seg r s)
    else s
  | .quiet | .startWait _ | .stopAttempt _ => s

/-- The controller observes a foreign frame from now on; `addressNext` says that the byte in progress, whose bits so far are
given, is an address byte still to be decided (R81, R99). -/
def enterForeign (seg : SegId) (addressNext : Bool) (bits : Byte × Nat) (s : State) : State :=
  modCtl seg (fun c =>
    { c with
      state := .foreign, bus := .busy, own := .quiet, earlyEnd := none, addressExpected := addressNext
      byteInProgress := bits.1, bitCount := bits.2 }) s

/-- The part loses its frame in arbitration: the bytes read so far stand in the receive buffer, the bits sent before the loss and
the bit of the loss are kept, and what it observes from now on is a foreign frame (R81, R101). -/
def loseFrame (seg : SegId) (r : FrameRun) (p : LossPoint) (s : State) : State :=
  enterForeign seg (lossInAddress r p) (byteAtLoss r p)
    (modCtl seg (fun c =>
      { c with
        traffic := noTraffic, holdSince := none, rx := fill 32 r.received, acksGiven := r.given, checkValue := r.crc }) s)

/-- The retry decision of an arbitration loss (R101): the backoff waits for the end of the foreign frame and a busy wait
begins; or the job completes and the controller stays FOREIGN. -/
def lossDecision (seg : SegId) (o : FrameOutcome) (s : State) : State :=
  match (ctl seg s).active with
  | none => s
  | some a =>
    match retryDecision (ctl seg s) a with
    | .retry =>
      beginBusyWait seg (modActive seg (fun a => { a with phase := .backoffPending }) (countAttempt seg o s))
    | .complete => afterCompletion seg (completeAttempt seg o s)
    | .cancel => afterCompletion seg (completeJob seg (bareOutcome .cancelled) (attemptsPlusOne a) s)

/-- A loss can be sensed here: the part has released the data line at that point of its frame, and its clock-hold, if any, has not
lasted the hold limit (R79, R81). -/
def lossSensed (seg : SegId) (wire : Traffic) (p : LossPoint) (s : State) : Bool :=
  comparesAt (frameToEnd seg s) (frameSoFar seg wire s) (bitsPassed (ctl seg s) wire) p
    && !holdExpired (ctl seg s) s

/-- ARBITRATION_LOSS: the attempt ends LOST_ARBITRATION and the controller enters FOREIGN (R81, R101). In STOPPING it
observes nothing more and the job completes (R113); after a soft reset it goes OFFLINE (R116). -/
def arbitrationLossEvent (seg : SegId) (wire : Traffic) (p : LossPoint) (s : State) : State :=
  match (ctl seg s).own with
  | .frame _ =>
    if lossSensed seg wire p s then
      match (ctl seg s).active with
      | none => endStopping seg s
      | some _ =>
        let r := frameSoFar seg wire s
        let o := r.outcome .lostArbitration
        if (ctl seg s).state = .stopping then
          takeResult seg o (fun s1 => afterCompletion seg (completeAttempt seg o s1)) s
        else takeResult seg o (fun s1 => lossDecision seg o (loseFrame seg r p s1)) s
    else s
  | .quiet | .startWait _ | .stopAttempt _ => s

/-! ## Hold timeout and the stop attempt (R106) -/

/-- The stop attempt begins: the data line is driven low, to be released once the clock line is sensed high, and one further hold
limit runs; the bit is not completed (R79, R106).
After a hold before a start the bus state is left FREE, since no event of R77 has made it BUSY; Table 6.1 does not name this
case, and it is the model's choice (log entry 29). -/
def beginStopAttempt (seg : SegId) (o : FrameOutcome) (s : State) : State :=
  modActive seg (fun a => { a with phase := .running, last := some o })
    (modCtl seg (fun c =>
      { c with
        own := .stopAttempt s.timebase, stopReleased := false, earlyEnd := none, traffic := noTraffic, holdSince := none
        byteInProgress := 0#8, bitCount := 0 }) s)

/-- HOLD_TIMEOUT: a clock-hold has lasted the hold limit, in a frame since the release of the clock line, or before a start since
the moment it was to be driven (R79, R106). Traffic that passed after the hold was found shows that the clock line has been
high since, so that this hold has ended. After a soft reset the controller goes OFFLINE, uncounted (R116, R151). -/
def holdTimeoutEvent (seg : SegId) (wire : Traffic) (s : State) : State :=
  match (ctl seg s).own with
  | .frame _ =>
    if holdExpired (ctl seg s) s = true ∧ wire = noTraffic then
      match (ctl seg s).active with
      | none => endStopping seg s
      | some _ =>
        let o := (frameSoFar seg noTraffic s).outcome .holdTimeout
        takeResult seg o (beginStopAttempt seg o) s
    else s
  | .startWait since =>
    if elapsed since (ctl seg s).cfg.holdLimit.toNat s then
      takeResult seg (bareOutcome .holdTimeout) (beginStopAttempt seg (bareOutcome .holdTimeout)) s
    else s
  | .quiet | .stopAttempt _ => s

/-- The HOLD_TIMEOUT completion formed when the stop attempt ends (R106). -/
def completeHoldTimeout (seg : SegId) (s : State) : State :=
  match (ctl seg s).active with
  | none => s
  | some a => completeAttempt seg (a.last.getD (bareOutcome .holdTimeout)) s

/-- STOP_ATTEMPT_END: both lines sensed high within the limit; the bus is FREE, the job completes and the controller is IDLE,
or its STOPPING ends (R106, R113, R116). -/
def stopAttemptEndEvent (seg : SegId) (s : State) : State :=
  match (ctl seg s).own with
  | .stopAttempt since =>
    if elapsed since (ctl seg s).cfg.holdLimit.toNat s then s
    else
      afterCompletion seg
        (modCtl seg (fun c => { c with own := .quiet, bus := .free }) (completeHoldTimeout seg s))
  | .quiet | .startWait _ | .frame _ => s

/-- STOP_ATTEMPT_TIMEOUT: the limit is reached with a line low; the job completes and the controller enters RECOVERING
without a job, or its STOPPING ends (R106, R113, R116). -/
def stopAttemptTimeoutEvent (seg : SegId) (sense : RecoverySense) (s : State) : State :=
  match (ctl seg s).own with
  | .stopAttempt since =>
    if elapsed since (ctl seg s).cfg.holdLimit.toNat s then
      if (ctl seg s).state = .stopping then endStopping seg (completeHoldTimeout seg s)
      else beginRecovery seg sense (completeHoldTimeout seg s)
    else s
  | .quiet | .startWait _ | .frame _ => s

/-! ## Delays of the active job -/

/-- A delay of the held job ends: the attempt is due. In FOREIGN and RECEIVING a busy wait begins (R98, R99); with the bus
FREE the attempt begins in the event ATTEMPT_BEGIN (log entry 11). -/
def delayEnds (seg : SegId) (s : State) : State :=
  let s1 := modActive seg (fun a => { a with phase := .due }) s
  if inForeignFrame (ctl seg s).state then beginBusyWait seg s1 else s1

/-- The settle delay of the entry an active WRITE job belongs to (R53). -/
def settleDelayOf (a : ActiveJob) (s : State) : Nat :=
  match a.job.ref with
  | .write e => (entry e s).cfg.settleDelay.toNat
  | .refresh _ | .direct _ => 0

/-- SETTLE_END: the settle delay ends and the verify read becomes due (R53). -/
def settleEndEvent (seg : SegId) (s : State) : State :=
  match (ctl seg s).active with
  | none => s
  | some a =>
    match a.phase with
    | .settle since => if elapsed since (settleDelayOf a s) s then delayEnds seg (verifyDue seg s) else s
    | .due | .running | .backoff _ | .backoffPending | .recovering => s

/-- BACKOFF_END: the retry delay ends and the next attempt becomes due (R104). -/
def backoffEndEvent (seg : SegId) (s : State) : State :=
  match (ctl seg s).active with
  | none => s
  | some a =>
    match a.phase with
    | .backoff since => if elapsed since (ctl seg s).cfg.backoff.toNat s then delayEnds seg s else s
    | .due | .running | .backoffPending | .settle _ | .recovering => s

/-- The BUS_BUSY result of the job held at the busy limit (R98). -/
def busBusy (seg : SegId) (s : State) : State :=
  takeResult seg (bareOutcome .busBusy) (retryOrComplete seg (bareOutcome .busBusy)) s

/-- BUSY_LIMIT_EXPIRY: the busy wait reaches the limit; without an active job a selection is made first (R68, R98). -/
def busyLimitExpiryEvent (seg : SegId) (s : State) : State :=
  match (ctl seg s).busySince with
  | none => s
  | some since =>
    if inForeignFrame (ctl seg s).state = true ∧ elapsed since (ctl seg s).cfg.busyLimit.toNat s = true then
      let s1 := modCtl seg (fun c => { c with busySince := none }) s
      if (ctl seg s).active = none then
        if occupancy (queue seg s) = 0 then s1 else busBusy seg (select seg s1)
      else busBusy seg s1
    else s

/-! ## Foreign frames (R99) -/

/-- FOREIGN with a busy wait where the controller holds a job whose attempt is due, or jobs wait without one (R98). A running
backoff or settle delay runs on. -/
def foreignBegins (seg : SegId) (s : State) : State :=
  let s1 := enterForeign seg true (0#8, 0) s
  match (ctl seg s).active with
  | none => if occupancy (queue seg s) = 0 then s1 else beginBusyWait seg s1
  | some a =>
    match a.phase with
    | .due => beginBusyWait seg s1
    | .running | .backoff _ | .backoffPending | .settle _ | .recovering => s1

/-- FOREIGN_START: a start the part did not drive (R99). In FOREIGN it is a repeated start, whose address byte is decided; in
RECEIVING it is one that ends the reception with the bytes received so far (R100). -/
def foreignStartEvent (seg : SegId) (s : State) : State :=
  match (ctl seg s).state with
  | .idle | .settle | .backoff => foreignBegins seg s
  | .active =>
    match (ctl seg s).own with
    | .startWait _ => foreignBegins seg s
    | .quiet | .frame _ | .stopAttempt _ => s
  | .foreign => modCtl seg (fun c => { c with addressExpected := true, byteInProgress := 0#8, bitCount := 0 }) s
  | .receiving => receptionEndEvent seg [] .repeatedStart s
  | .offline | .recovering | .quarantined | .stopping => s

/-- FOREIGN_STOP: the stop of a foreign frame frees the bus (R77, R99); in RECEIVING it first ends the reception with the bytes
received so far (R100). -/
def foreignStopEvent (seg : SegId) (s : State) : State :=
  match (ctl seg s).state with
  | .foreign => foreignEnds seg s
  | .receiving => receptionEndEvent seg [] .stop s
  | .offline | .idle | .active | .settle | .backoff | .recovering | .quarantined | .stopping => s

/-! ## Recovery (R109) -/

/-- RELEASE_PULSE: one pulse of the clock line and the check of the data line (R109 step 2). -/
def releasePulseEvent (seg : SegId) (lines after : Lines) (s : State) : State :=
  match (ctl seg s).recovery with
  | some { phase := .pulsing, pulses := n } =>
    if lines.scl then recoveryCheck seg (n + 1) lines.sda after s
    else recoverAt seg (.pulseWait s.timebase) (n + 1) s
  | some _ | none => s

/-- LINE_CLEAR_HOLD_END: the 40 ms hold ends and the clock line is released (R109 step 4). -/
def lineClearHoldEndEvent (seg : SegId) (lines after : Lines) (s : State) : State :=
  match (ctl seg s).recovery with
  | some { phase := .lineClear since, pulses := n } =>
    if elapsed since Config.lineClearMs s then
      if lines.scl && lines.sda then recoveryStop seg n true after s
      else recoverAt seg (.clearWait s.timebase) n s
    else s
  | some _ | none => s

/-- The timebase value since which a recovery waits for a line, if it does. -/
def recoveryWait (r : Recovery) : Option Word :=
  match r.phase with
  | .checkWait since | .pulseWait since | .clearWait since => some since
  | .pulsing | .lineClear _ => none

/-- RECOVERY_HOLD_TIMEOUT: a recovery wait reaches the hold limit; SEGMENT_FAULT (R109). -/
def recoveryHoldTimeoutEvent (seg : SegId) (s : State) : State :=
  match (ctl seg s).recovery.bind recoveryWait with
  | some since => if elapsed since (ctl seg s).cfg.holdLimit.toNat s then segmentFault seg s else s
  | none => s

/-- RECOVERY_LINES_SENSED_HIGH: within the hold limit the line a recovery waits for is sensed high, and recovery goes on to
its check or, after the line-clear hold, to its final stop, which needs both lines high (R109). -/
def recoveryLinesSensedHighEvent (seg : SegId) (sda : Bool) (after : Lines) (s : State) : State :=
  match (ctl seg s).recovery with
  | some { phase := .checkWait since, pulses := n } | some { phase := .pulseWait since, pulses := n } =>
    if elapsed since (ctl seg s).cfg.holdLimit.toNat s then s else recoveryCheck seg n sda after s
  | some { phase := .clearWait since, pulses := n } =>
    if elapsed since (ctl seg s).cfg.holdLimit.toNat s = true ∨ sda = false then s else recoveryStop seg n true after s
  | some { phase := .pulsing, .. } | some { phase := .lineClear _, .. } | none => s

/-! ## The rows -/

/-- SELECTION (R68). -/
def execSelection (seg : SegId) (s : State) : Host.Outcome State Fault Refusal :=
  .next (outOfReset (selectionEvent seg) s)

/-- ATTEMPT_BEGIN (R97). -/
def execAttemptBegin (seg : SegId) (lines : Lines) (sense : RecoverySense) (s : State) :
    Host.Outcome State Fault Refusal :=
  .next (outOfReset (attemptBeginEvent seg lines sense) s)

/-- CLOCK_LINE_SENSED_HIGH (R97). -/
def execClockLineSensedHigh (seg : SegId) (sda : Bool) (sense : RecoverySense) (s : State) :
    Host.Outcome State Fault Refusal :=
  .next (outOfReset (clockLineSensedHighEvent seg sda sense) s)

/-- FRAME_END (R84). -/
def execFrameEnd (seg : SegId) (wire : Traffic) (s : State) : Host.Outcome State Fault Refusal :=
  .next (outOfReset (frameEndEvent seg wire) s)

/-- FRAME_ENDED_EARLY (R85). -/
def execFrameEndedEarly (seg : SegId) (wire : Traffic) (s : State) : Host.Outcome State Fault Refusal :=
  .next (outOfReset (frameEndedEarlyEvent seg wire) s)

/-- ARBITRATION_LOSS (R101). -/
def execArbitrationLoss (seg : SegId) (wire : Traffic) (point : LossPoint) (s : State) :
    Host.Outcome State Fault Refusal :=
  .next (outOfReset (arbitrationLossEvent seg wire point) s)

/-- HOLD_TIMEOUT (R106). -/
def execHoldTimeout (seg : SegId) (wire : Traffic) (s : State) : Host.Outcome State Fault Refusal :=
  .next (outOfReset (holdTimeoutEvent seg wire) s)

/-- STOP_ATTEMPT_END (R106). -/
def execStopAttemptEnd (seg : SegId) (s : State) : Host.Outcome State Fault Refusal :=
  .next (outOfReset (stopAttemptEndEvent seg) s)

/-- STOP_ATTEMPT_TIMEOUT (R106). -/
def execStopAttemptTimeout (seg : SegId) (sense : RecoverySense) (s : State) : Host.Outcome State Fault Refusal :=
  .next (outOfReset (stopAttemptTimeoutEvent seg sense) s)

/-- SETTLE_END (R53). -/
def execSettleEnd (seg : SegId) (s : State) : Host.Outcome State Fault Refusal :=
  .next (outOfReset (settleEndEvent seg) s)

/-- BACKOFF_END (R104). -/
def execBackoffEnd (seg : SegId) (s : State) : Host.Outcome State Fault Refusal :=
  .next (outOfReset (backoffEndEvent seg) s)

/-- BUSY_LIMIT_EXPIRY (R98). -/
def execBusyLimitExpiry (seg : SegId) (s : State) : Host.Outcome State Fault Refusal :=
  .next (outOfReset (busyLimitExpiryEvent seg) s)

/-- FOREIGN_START (R99). -/
def execForeignStart (seg : SegId) (s : State) : Host.Outcome State Fault Refusal :=
  .next (outOfReset (foreignStartEvent seg) s)

/-- FOREIGN_STOP (R99). -/
def execForeignStop (seg : SegId) (s : State) : Host.Outcome State Fault Refusal :=
  .next (outOfReset (foreignStopEvent seg) s)

/-- RELEASE_PULSE (R109). -/
def execReleasePulse (seg : SegId) (lines afterStop : Lines) (s : State) : Host.Outcome State Fault Refusal :=
  .next (outOfReset (releasePulseEvent seg lines afterStop) s)

/-- LINE_CLEAR_HOLD_END (R109). -/
def execLineClearHoldEnd (seg : SegId) (lines afterStop : Lines) (s : State) : Host.Outcome State Fault Refusal :=
  .next (outOfReset (lineClearHoldEndEvent seg lines afterStop) s)

/-- RECOVERY_HOLD_TIMEOUT (R109). -/
def execRecoveryHoldTimeout (seg : SegId) (s : State) : Host.Outcome State Fault Refusal :=
  .next (outOfReset (recoveryHoldTimeoutEvent seg) s)

/-- RECOVERY_LINES_SENSED_HIGH (R109). -/
def execRecoveryLinesSensedHigh (seg : SegId) (sda : Bool) (afterStop : Lines) (s : State) :
    Host.Outcome State Fault Refusal :=
  .next (outOfReset (recoveryLinesSensedHighEvent seg sda afterStop) s)

end Sys2Proof.Machine
end

