-- ==== Sys2Proof/Machine/Dispatch.lean ====
section
/-! DEFINITION. The meaning of every command: one arm per constructor of Instr, one call each. -/

namespace Sys2Proof.Machine

/-- The effect of a command on everything but the queue of pending commands. -/
def exec (i : Instr) (s : State) : Host.Outcome State Fault Refusal :=
  match i with
  | .entryEnable arg tag => Sys2Proof.Machine.execEntryEnable arg tag s
  | .entryDisable arg tag => Sys2Proof.Machine.execEntryDisable arg tag s
  | .entryRefresh arg tag => Sys2Proof.Machine.execEntryRefresh arg tag s
  | .entryCommit arg tag => Sys2Proof.Machine.execEntryCommit arg tag s
  | .entryAckFault arg tag => Sys2Proof.Machine.execEntryAckFault arg tag s
  | .groupSweep arg tag => Sys2Proof.Machine.execGroupSweep arg tag s
  | .segmentOnline arg tag sense => Sys2Proof.Machine.execSegmentOnline arg tag sense s
  | .segmentOffline arg tag => Sys2Proof.Machine.execSegmentOffline arg tag s
  | .segmentRestore arg tag sense => Sys2Proof.Machine.execSegmentRestore arg tag sense s
  | .slotSubmit arg tag => Sys2Proof.Machine.execSlotSubmit arg tag s
  | .slotCancel arg tag reports => Sys2Proof.Machine.execSlotCancel arg tag s reports
  | .slotRelease arg tag => Sys2Proof.Machine.execSlotRelease arg tag s
  | .listenEnable arg tag => Sys2Proof.Machine.execListenEnable arg tag s
  | .listenDisable arg tag => Sys2Proof.Machine.execListenDisable arg tag s
  | .capturePop arg tag => Sys2Proof.Machine.execCapturePop arg tag s
  | .captureFlush arg tag => Sys2Proof.Machine.execCaptureFlush arg tag s
  | .softReset arg tag reports taken => Sys2Proof.Machine.execSoftReset arg tag s reports taken
  | .unknownCommand code arg tag => Sys2Proof.Machine.execUnknownCommand code arg tag s
  | .stagingBufferWrite entry word be data => Sys2Proof.Machine.execStagingBufferWrite entry word be data s
  | .groupPeriodWrite record be data => Sys2Proof.Machine.execGroupPeriodWrite record be data s
  | .eventFlagWrite be data => Sys2Proof.Machine.execEventFlagWrite be data s
  | .eventEnableWrite be data => Sys2Proof.Machine.execEventEnableWrite be data s
  | .accessErrorRecordClear be data => Sys2Proof.Machine.execAccessErrorRecordClear be data s
  | .accessErrorCountClear be data => Sys2Proof.Machine.execAccessErrorCountClear be data s
  | .hostWrite addr be data => Sys2Proof.Machine.execHostWrite addr be data s
  | .unmappedRead addr => Sys2Proof.Machine.execUnmappedRead addr s
  | .pinReset => Sys2Proof.Machine.execPinReset s
  | .pinResetRelease => Sys2Proof.Machine.execPinResetRelease s
  | .timebaseTick reports => Sys2Proof.Machine.execTimebaseTick s reports
  | .entryDueExpiry entry => Sys2Proof.Machine.execEntryDueExpiry entry s
  | .groupDueExpiry group => Sys2Proof.Machine.execGroupDueExpiry group s
  | .selection seg => Sys2Proof.Machine.execSelection seg s
  | .startReport entry => Sys2Proof.Machine.execStartReport entry s
  | .attemptBegin seg lines sense => Sys2Proof.Machine.execAttemptBegin seg lines sense s
  | .frameEnd seg wire => Sys2Proof.Machine.execFrameEnd seg wire s
  | .frameEndedEarly seg wire => Sys2Proof.Machine.execFrameEndedEarly seg wire s
  | .arbitrationLoss seg wire point => Sys2Proof.Machine.execArbitrationLoss seg wire point s
  | .holdTimeout seg wire => Sys2Proof.Machine.execHoldTimeout seg wire s
  | .stopAttemptEnd seg => Sys2Proof.Machine.execStopAttemptEnd seg s
  | .stopAttemptTimeout seg sense => Sys2Proof.Machine.execStopAttemptTimeout seg sense s
  | .settleEnd seg => Sys2Proof.Machine.execSettleEnd seg s
  | .backoffEnd seg => Sys2Proof.Machine.execBackoffEnd seg s
  | .busyLimitExpiry seg => Sys2Proof.Machine.execBusyLimitExpiry seg s
  | .foreignStart seg => Sys2Proof.Machine.execForeignStart seg s
  | .foreignStop seg => Sys2Proof.Machine.execForeignStop seg s
  | .addressByteDecision seg byte => Sys2Proof.Machine.execAddressByteDecision seg byte s
  | .receptionEnd seg bytes ending => Sys2Proof.Machine.execReceptionEnd seg bytes ending s
  | .deviceNotice => Sys2Proof.Machine.execDeviceNotice s
  | .refreshCompletion entry => Sys2Proof.Machine.execRefreshCompletion entry s
  | .memberRefreshCompletion entry => Sys2Proof.Machine.execMemberRefreshCompletion entry s
  | .writeCompletion entry => Sys2Proof.Machine.execWriteCompletion entry s
  | .slotCompletion slot => Sys2Proof.Machine.execSlotCompletion slot s
  | .releasePulse seg lines afterStop => Sys2Proof.Machine.execReleasePulse seg lines afterStop s
  | .lineClearHoldEnd seg lines afterStop => Sys2Proof.Machine.execLineClearHoldEnd seg lines afterStop s
  | .recoveryHoldTimeout seg => Sys2Proof.Machine.execRecoveryHoldTimeout seg s
  | .clockLineSensedHigh seg sda sense => Sys2Proof.Machine.execClockLineSensedHigh seg sda sense s
  | .recoveryLinesSensedHigh seg sda afterStop => Sys2Proof.Machine.execRecoveryLinesSensedHigh seg sda afterStop s

end Sys2Proof.Machine
end

