-- ==== Sys2Proof/Machine/Step.lean ====
section
/-! DEFINITION. One step: the command at the front of the queue, or on an empty queue the next delivery of a soft reset. -/

namespace Sys2Proof.Machine

/-- Takes the command at the front of the queue and answers what exec answers on it with the queue's rest. On an empty queue
the next delivery of a soft reset in progress is taken (R149), and where none waits the block idles: the timebase moves only by
the command TIMEBASE_TICK (log entry 4). -/
def step (s : State) : Host.Outcome State Fault Refusal :=
  match s.pending with
  | [] => .next (outOfReset nextDelivery s)
  | c :: rest => exec c { s with pending := rest }

/-- The state with the command a word spells put at the front of its queue; unchanged where the word spells none. -/
def State.withFetchWord (s : State) (nbits w : Nat) : State :=
  match decodeTableWord nbits w with
  | some c => { s with pending := c :: s.pending }
  | none => s

end Sys2Proof.Machine
end

