-- ==== Sys2Proof/Safety.lean ====
section
/-! DEFINITION. The invariants of the part that statements speak of: capacities of queues and ring, the order of capture
records, what a controller state allows, and the part while RESETn is asserted. -/

namespace Sys2Proof.Safety

open Sys2Proof.Machine

/-- R60, R70: at most 32 jobs in a queue, at most 24 of them ROUTINE, the urgent streak from 0 to 4. -/
def QueueBounded (q : SegQueue) : Prop :=
  occupancy q ≤ Config.queueCapacity ∧ q.routine.length ≤ Config.routineLimit ∧ q.streak ≤ Config.guardLimit

/-- Every Segment Queue keeps its bounds. -/
def QueuesBounded (s : State) : Prop := ∀ q, QueueBounded (queue q s)

/-- R135, R136: completed records and reservations together never exceed 32, and a reception holds a reservation exactly
when its action needs a ring place. -/
def RingBounded (s : State) : Prop :=
  s.ring.length + reservedCount s ≤ Config.ringPlaces
    ∧ ∀ q r, reception q s = some r → r.reserved = needsPlace r.action

/-- R137: the completed records carry consecutive sequences modulo 65536, and the newest carries the one before the next
sequence. -/
def RingInOrder (s : State) : Prop :=
  ∀ i (h : i < s.ring.length), (s.ring[i]'h).sequence = s.nextSequence - BitVec.ofNat 16 (s.ring.length - i)

/-- A soft reset has reached the controller of a segment and not yet its queue (R149). -/
def awaitsQueue (seg : SegId) (s : State) : Bool :=
  resetReached (.controller seg) s && !resetReached (.queue seg) s

/-- R66, R73, R93 (Table 6.1): what a controller state allows. A queue that refuses jobs is empty, but for a controller in STOPPING
whose queue a soft reset has still to reach, which `awaits` says; OFFLINE and QUARANTINED hold no job; ACTIVE holds one; the part
has something of its own on the wire only in ACTIVE and STOPPING, and a recovery only in RECOVERING. -/
def ControllerOk (awaits : Bool) (c : Controller) (q : SegQueue) : Prop :=
  (refusesJobs c.state = true → (c.state = .stopping ∧ awaits = true) ∨ (q.urgent = [] ∧ q.routine = []))
    ∧ (c.state = .offline ∨ c.state = .quarantined → c.active = none)
    ∧ (c.state = .active → c.active ≠ none)
    ∧ (c.own ≠ .quiet → c.state = .active ∨ c.state = .stopping)
    ∧ (c.recovery ≠ none → c.state = .recovering)

/-- Every controller with its queue. -/
def ControllersOk (s : State) : Prop := ∀ q, ControllerOk (awaitsQueue q s) (ctl q s) (queue q s)

/-- R95, R103, R111 (Tables 6.3 and 6.4): an OFFLINE segment has streak 0; any other has a configuration that SEGMENT_ONLINE
accepts, and its streak stands below the quarantine threshold unless it is QUARANTINED. -/
def StreakOk (c : Controller) : Prop :=
  (c.state = .offline → c.streak = 0#4)
    ∧ (c.state ≠ .offline → segConfigValid c.cfg = true)
    ∧ (c.state ≠ .offline → c.state ≠ .quarantined → c.streak.toNat < c.cfg.threshold.toNat)

/-- Every segment's streak. -/
def StreaksOk (s : State) : Prop := ∀ q, StreakOk (ctl q s)

/-- R160: while RESETn is asserted every block holds its pin-reset values. The queue of commands and the index of the free
value are not the part's (log entry 22). -/
def HeldInReset (s : State) : Prop :=
  s.inReset = true → s = { State.reset with inReset := true, pending := s.pending, freeIndex := s.freeIndex }

end Sys2Proof.Safety
end

