-- ==== Sys2Proof/WellFormed.lean ====
section
/-! DEFINITION. When a command is the command of its row: what a row's name promises about its operands. exec is total and
gives every term the effect the spec gives the access or event it stands for, well-formed or not. -/

namespace Sys2Proof

open Sys2Proof.Machine

/-- A byte address of a word: A[13:2] with the low two bits 0 (R155). -/
def wordAligned (a : Addr) : Bool := a.extractLsb' 0 2 == 0#2

/-- A code that is not one of the seventeen (R147). -/
def codeUnknown (code : Byte) : Bool := !knownCodes.contains code

/-- A word whose stored writes have a row of their own, whatever the byte enables. -/
def hasOwnRow (l : Loc) : Bool :=
  match l with
  | .staging _ _ | .groupPeriod _ => true
  | .global .flags | .global .enables | .global .accessRecord | .global .accessCount => true
  | _ => false

/-- A HOST_WRITE addresses a word of none of the rows for single words, and is no full write of the command word. -/
def otherWrite (a : Addr) (be : BitVec 4) : Bool :=
  match locate a with
  | some l => !hasOwnRow l && !(l == .global .command && be == 0xF#4)
  | none => true

/-- The reports of a command: one for a segment at most, each with no more bits than a byte has. -/
def reportsOk (reports : List LineReport) : Bool :=
  decide (reports.map LineReport.seg).Nodup && reports.all fun w => w.bits.length ≤ 8

/-- The term is a command of its row. -/
def wellFormed (i : Instr) : Bool :=
  match i with
  | .unknownCommand code _ _ => codeUnknown code
  | .hostWrite a be _ => wordAligned a && otherWrite a be
  | .unmappedRead a => wordAligned a && locate a == none
  | .timebaseTick reports | .slotCancel _ _ reports | .softReset _ _ reports _ => reportsOk reports
  | _ => true

end Sys2Proof
end

