-- ==== Sys2Proof/Certificates/Slice0/Obligations.lean ====
section
/-! DEFINITION. The statements for the provers: what the commands of the AF8128 do, from the numbered rules of the spec, and
the invariants every step keeps. The words they share stand first, in Sys2Proof.Spec. -/

namespace Sys2Proof.Spec

open Sys2Proof.Machine

/-! ## Words the statements share -/

/-- RESETn is released and the Command Port is not RESETTING. -/
def Ready (s : State) : Prop := s.inReset = false ∧ s.resetting = false

/-- The command word: code in [7:0], argument in [15:8], tag in [31:16] (Table 10.3). -/
def word (code arg : Byte) (tag : Half) : Word := tag ++ arg ++ code

/-- A command answered ACCEPTED: the command word is kept and the result word replaced (R146, R148). -/
def accepted (code arg : Byte) (tag : Half) (s : State) : State :=
  { s with
    command := word code arg tag, result := { code := code, outcome := .accepted, reason := .none, tag := tag } }

/-- A command answered REFUSED with a reason (R148). -/
def refused (code arg : Byte) (tag : Half) (reason : Reason) (s : State) : State :=
  { s with
    command := word code arg tag, result := { code := code, outcome := .refused, reason := reason, tag := tag } }

/-- The result word takes an answer (R148). -/
def answered (code : Byte) (tag : Half) (outcome : CommandOutcome) (reason : Reason) (s : State) : State :=
  { s with result := { code := code, outcome := outcome, reason := reason, tag := tag } }

/-- The state in which the owner of a command finds the part: the command word is already kept (R146). -/
def issued (code arg : Byte) (tag : Half) (s : State) : State := { s with command := word code arg tag }

/-- An access error taken: count, record, ACCESS_ERROR (R157, R158). -/
def errorTaken (a : Addr) (isWrite : Bool) (reason : AccessReason) (s : State) : State :=
  { s with
    accessCount := if s.accessCount = 0xFFFF#16 then s.accessCount else s.accessCount + 1#16
    accessRecord :=
      if s.accessRecord.valid = true then s.accessRecord
      else { valid := true, isWrite := isWrite, reason := reason, address := a &&& 0x3FFC#14 }
    flags := s.flags ||| 0x800#13 }

/-- A configuration word that is locked now (Table 10.1, row LOCKED). -/
def Locked (l : Loc) (s : State) : Prop :=
  (∃ e, (l = .entryConfig0 e ∨ l = .entryConfig1 e ∨ l = .entrySettle e) ∧ (entry e s).enable ≠ .disabled)
    ∨ (∃ k, (l = .slotDesc0 k ∨ l = .slotDesc1 k ∨ ∃ w, l = .slotData k w) ∧ (slot k s).state ≠ .free)
    ∨ (∃ i, l = .listenFields i ∧ (listenEntry i s).enabled = true)
    ∨ ∃ q, (l = .segConfig0 q ∨ l = .segConfig1 q) ∧ (ctl q s).state ≠ .offline

/-- The configuration words a HOST_WRITE stores, and the bits of each that carry a writable field (section 10.7). -/
def writableBits (l : Loc) : Option Word :=
  match l with
  | .entryConfig0 _ => some 0x03FFFFFF#32
  | .entryConfig1 _ => some 0xFFFFFFFF#32
  | .entrySettle _ => some 0x000000FF#32
  | .segConfig0 _ => some 0x00FF0F73#32
  | .segConfig1 _ => some 0x0000FFFF#32
  | .listenFields _ => some 0x00077FFF#32
  | .slotDesc0 _ => some 0x00177F07#32
  | .slotDesc1 _ => some 0x00003F3F#32
  | .global .detailSelect => some 0x0000007F#32
  | _ => none

/-- Code, argument and tag of a full write of the command word with a known code. -/
def commandOf (i : Instr) : Option (Byte × Byte × Half) :=
  match i with
  | .entryEnable a t => some (0x01#8, a, t)
  | .entryDisable a t => some (0x02#8, a, t)
  | .entryRefresh a t => some (0x03#8, a, t)
  | .entryCommit a t => some (0x04#8, a, t)
  | .entryAckFault a t => some (0x05#8, a, t)
  | .groupSweep a t => some (0x10#8, a, t)
  | .segmentOnline a t _ => some (0x20#8, a, t)
  | .segmentOffline a t => some (0x21#8, a, t)
  | .segmentRestore a t _ => some (0x22#8, a, t)
  | .slotSubmit a t => some (0x30#8, a, t)
  | .slotCancel a t _ => some (0x31#8, a, t)
  | .slotRelease a t => some (0x32#8, a, t)
  | .listenEnable a t => some (0x40#8, a, t)
  | .listenDisable a t => some (0x41#8, a, t)
  | .capturePop a t => some (0x50#8, a, t)
  | .captureFlush a t => some (0x51#8, a, t)
  | .softReset a t _ _ => some (0x7F#8, a, t)
  | _ => none

/-- The argument lies in the range of its index: entry 0-127, group 1-15, segment 0-7, slot 0-7, listen entry 0-15; three
commands do not use it (R147). -/
def ArgInRange (i : Instr) (arg : Byte) : Prop :=
  match i with
  | .entryEnable _ _ | .entryDisable _ _ | .entryRefresh _ _ | .entryCommit _ _ | .entryAckFault _ _ => arg.toNat ≤ 127
  | .groupSweep _ _ => 1 ≤ arg.toNat ∧ arg.toNat ≤ 15
  | .segmentOnline _ _ _ | .segmentOffline _ _ | .segmentRestore _ _ _ => arg.toNat ≤ 7
  | .slotSubmit _ _ | .slotCancel _ _ _ | .slotRelease _ _ => arg.toNat ≤ 7
  | .listenEnable _ _ | .listenDisable _ _ => arg.toNat ≤ 15
  | _ => True

/-- A host write: a command, a register row or any other write. -/
def isHostWrite (i : Instr) : Bool :=
  match i with
  | .unknownCommand _ _ _ | .stagingBufferWrite _ _ _ _ | .groupPeriodWrite _ _ _ | .eventFlagWrite _ _
  | .eventEnableWrite _ _ | .accessErrorRecordClear _ _ | .accessErrorCountClear _ _ | .hostWrite _ _ _ => true
  | i => (commandOf i).isSome

/-- The part when a command is taken that tells what has passed on the segments' lines before it: those reports are taken first,
as a tick takes them; while RESETn is asserted nothing is. -/
def afterReports (i : Instr) (s : State) : State :=
  match i with
  | .slotCancel _ _ reports | .softReset _ _ reports _ => if s.inReset = true then s else linesPass reports s
  | _ => s

/-- A byte argument that is the index of a record. -/
def indexByte {n : Nat} (i : Fin n) : Byte := BitVec.ofNat 8 i.val

/-! ## Entries and their queues, in the words of the rules -/

/-- FRESH becomes STALE; NONE and STALE are kept (R14). -/
def toStale (v : Validity) : Validity := if v = .fresh then .stale else v

/-- One more, staying at 255 (R8, Table 2.2). -/
def oneMore (c : Byte) : Byte := if c = 255#8 then 255#8 else c + 1#8

/-- The entry is fault-marked; ENTRY_FAULT is requested where the mark was clear (R17). -/
def marked (e : EntryId) (s : State) : State :=
  { s with
    entries := putAt s.entries e { entry e s with faultMark := true }
    flags := if (entry e s).faultMark = true then s.flags else s.flags ||| 0x001#13 }

/-- A publish of an ungrouped entry (R12). -/
def publishedEntry (bytes : List Byte) (now : Word) (x : Entry) : Entry :=
  { x with
    published := fill 32 (bytes.take x.cfg.length.toNat), publishSeq := x.publishSeq + 1#16, validity := .fresh
    publishTime := now }

/-- The queue answers DOWN (first two rows of Table 4.3). -/
def isDown (q : SegId) (s : State) : Bool :=
  (ctl q s).state == .offline || (ctl q s).state == .quarantined || (ctl q s).state == .stopping || s.resetting

/-- The occupancy at which a class is refused FULL (Table 4.3). -/
def limit (cls : JobClass) : Nat :=
  match cls with
  | .urgent => 32
  | .routine => 24

/-- The answer to an admission request (Table 4.3). -/
def answerOf (q : SegId) (cls : JobClass) (s : State) : Admission :=
  if isDown q s = true then .down else if limit cls ≤ occupancy (queue q s) then .full else .admitted

/-- A queue with jobs joined at the tail of a class, in their order (R60). -/
def withTail (cls : JobClass) (js : List Job) (q : SegQueue) : SegQueue :=
  match cls with
  | .urgent => { q with urgent := q.urgent ++ js }
  | .routine => { q with routine := q.routine ++ js }

/-- A job admitted to an empty queue begins a busy wait here: FOREIGN or RECEIVING without an active job (R98). -/
def beginsWait (q : SegId) (s : State) : Bool :=
  occupancy (queue q s) == 0 && ((ctl q s).state == .foreign || (ctl q s).state == .receiving) && (ctl q s).active == none

/-- A job has joined the tail of its class (R60, R63, R98). -/
def joined (q : SegId) (j : Job) (s : State) : State :=
  { s with
    queues := putAt s.queues q (withTail j.cls [j] (queue q s))
    ctls := if beginsWait q s = true then putAt s.ctls q { ctl q s with busySince := some s.timebase } else s.ctls }

/-- The job of an owner in its queue leaves it: the first of that kind and owner (R62, R65). -/
def queueWithout (r : JobRef) (q : SegQueue) : SegQueue :=
  if q.urgent.any (hasRef r) = true then { q with urgent := q.urgent.eraseP (hasRef r) }
  else { q with routine := q.routine.eraseP (hasRef r) }

/-- The queue holds a job of that kind and owner (R62). -/
def holds (r : JobRef) (q : SegQueue) : Bool := q.urgent.any (hasRef r) || q.routine.any (hasRef r)

/-- A REFRESH job of an entry, as it is admitted (Table 4.2). -/
def refreshJob (e : EntryId) (cls : JobClass) (tag : Option GroupId) : Job :=
  { ref := .refresh e, cls := cls, tag := tag, attempts := 0#3 }

/-- A WRITE job of an entry, as it is admitted (Table 4.2). -/
def writeJob (e : EntryId) : Job := { ref := .write e, cls := .urgent, tag := none, attempts := 0#3 }

/-- R50: a REFRESH job of an ungrouped entry is admitted while the write is PENDING, or ACTIVE with write-again set. -/
def meetsWrite (x : Entry) : Bool :=
  x.cfg.group == 0#4 && (x.write == .pending || (x.write == .active && x.writeAgain))

/-- A request for a REFRESH job and its answer, taken at the entry as one event (R30, R50). -/
def requested (e : EntryId) (cls : JobClass) (tag : Option GroupId) (s : State) : State :=
  match answerOf (entry e s).cfg.seg cls s with
  | .admitted =>
    modEntry e (fun x =>
      { x with refresh := .queued, refreshClass := cls, writeOvertaken := x.writeOvertaken || meetsWrite x })
      (joined (entry e s).cfg.seg (refreshJob e cls tag) s)
  | .full =>
    { modEntry e (fun x => { x with missed := oneMore x.missed }) s with
      flags := if cls = .routine then s.flags ||| 0x100#13 else s.flags }
  | .down =>
    marked e (modEntry e (fun x => { x with validity := toStale x.validity, lastRefresh := .segmentDown }) s)

/-- An on-demand refresh of an ungrouped entry by its refresh activity (the tables of R24 and R31). -/
def demanded (e : EntryId) (s : State) : State :=
  let q := (entry e s).cfg.seg
  match (entry e s).refresh, (entry e s).refreshClass with
  | .idle, _ => requested e .urgent none s
  | .queued, .routine =>
    if (queue q s).routine.any (hasRef (.refresh e)) = true then
      modEntry e (fun x => { x with refreshClass := .urgent })
        (setQueue q
          { queue q s with
            urgent := (queue q s).urgent
              ++ (((queue q s).routine.filter (hasRef (.refresh e))).take 1).map (fun j => { j with cls := .urgent })
            routine := (queue q s).routine.eraseP (hasRef (.refresh e)) } s)
    else if (queue q s).urgent.any (hasRef (.refresh e)) = true then
      modEntry e (fun x => { x with refreshClass := .urgent }) s
    else modEntry e (fun x => { x with refreshAgain := true }) s
  | .queued, .urgent => s
  | .active, _ => modEntry e (fun x => { x with refreshAgain := true }) s
  | .held, _ => s

/-! ## Sweeps, in the words of the rules -/

/-- The job named has left the queue; a queue that empties so while the controller has no active job ends its busy wait (R65,
R98). -/
def left (q : SegId) (r : JobRef) (s : State) : State :=
  { s with
    queues := putAt s.queues q (queueWithout r (queue q s))
    ctls :=
      if occupancy (queueWithout r (queue q s)) = 0 ∧ (ctl q s).active = none then
        putAt s.ctls q { ctl q s with busySince := none }
      else s.ctls }

/-- Held bytes of no use any more: the buffer is 0, the activity IDLE (R11, R43). -/
def released (x : Entry) : Entry := { x with refresh := .idle, held := Vector.replicate 32 0#8 }

/-- A HELD member of the group (R39). -/
def isHeld (g : GroupId) (s : State) (e : EntryId) : Bool := isMember g (entry e s) && (entry e s).refresh == .held

/-- The torn end of a sweep, the restart of R44 apart (R43). -/
def tornEnded (g : GroupId) (s : State) : State :=
  { s with
    entries := tabulate 128 fun e => if isHeld g s e = true then released (entry e s) else entry e s
    groups := putAt s.groups g { group g s with torn := true, lastTorn := true, state := .idle }
    flags := s.flags ||| 0x010#13 }

/-- The group publish, the restart of R44 apart (R42). -/
def groupPublished (g : GroupId) (s : State) : State :=
  let number := if (group g s).sweepNumber = 65535#16 then 1#16 else (group g s).sweepNumber + 1#16
  { s with
    entries := tabulate 128 fun e =>
      if isHeld g s e = true then
        released { publishedEntry (entry e s).held.toList s.timebase (entry e s) with sweepNumber := number }
      else entry e s
    groups :=
      putAt s.groups g
        { group g s with sweepNumber := number, lastTorn := false, lastPublish := s.timebase, state := .idle }
    flags := s.flags ||| 0x008#13 }

/-- A member that a sweep start asks: ENABLED in the group (R38). -/
def isAsked (g : GroupId) (s : State) (e : EntryId) : Bool :=
  (entry e s).enable == .enabled && (entry e s).cfg.groupId == some g

/-- How many members asked before this one have their job on the same segment (R38: ascending order of entry index). -/
def askedBefore (g : GroupId) (s : State) (e : EntryId) : Nat :=
  ((indices 128).filter fun d => decide (d < e) && isAsked g s d && (entry d s).cfg.seg == (entry e s).cfg.seg).length

/-- The answer a member asked by a sweep start gets: every member before it on its segment has taken a place, if there was
one (R38, R63). -/
def sweepAnswer (g : GroupId) (cls : JobClass) (s : State) (e : EntryId) : Admission :=
  let q := (entry e s).cfg.seg
  if isDown q s = true then .down
  else if limit cls ≤ occupancy (queue q s) + askedBefore g s e then .full
  else .admitted

/-- The members a sweep start asks with this answer, in ascending order. -/
def answeredBy (g : GroupId) (cls : JobClass) (a : Admission) (s : State) : List EntryId :=
  (indices 128).filter fun e => isAsked g s e && sweepAnswer g cls s e == a

/-- A member after its answer (R30, R38). -/
def askedEntry (cls : JobClass) (a : Admission) (x : Entry) : Entry :=
  match a with
  | .admitted => { x with refresh := .queued, refreshClass := cls }
  | .full => { x with missed := oneMore x.missed }
  | .down => { x with validity := toStale x.validity, lastRefresh := .segmentDown, faultMark := true }

/-- A group whose sweep has started and has asked every ENABLED member (R38 steps 1 and 2). -/
def sweepAsked (g : GroupId) (cls : JobClass) (s : State) : State :=
  let jobs := fun q => (answeredBy g cls .admitted s).filter fun e => (entry e s).cfg.seg == q
  { s with
    entries := tabulate 128 fun e =>
      if isAsked g s e = true then askedEntry cls (sweepAnswer g cls s e) (entry e s) else entry e s
    queues := tabulate 8 fun q => withTail cls ((jobs q).map fun e => refreshJob e cls (some g)) (queue q s)
    ctls := tabulate 8 fun q =>
      if beginsWait q s = true ∧ jobs q ≠ [] then { ctl q s with busySince := some s.timebase } else ctl q s
    groups :=
      putAt s.groups g
        { group g s with
          state := .sweeping, torn := !((answeredBy g cls .full s).isEmpty && (answeredBy g cls .down s).isEmpty)
          outstanding := (answeredBy g cls .admitted s).length }
    flags :=
      s.flags ||| (if cls = .routine ∧ answeredBy g cls .full s ≠ [] then 0x100#13 else 0#13)
        ||| if (answeredBy g cls .down s).any (fun e => !(entry e s).faultMark) = true then 0x001#13 else 0#13 }

/-- A member withdraws from its group's sweep: torn, the count lowered unless it was HELD, and at 0 the sweep ends (R41; that R21
says otherwise of a HELD member: log entry 24); an ungrouped entry has no group. -/
def withdrawn (g : Option GroupId) (wasHeld : Bool) (s : State) : State :=
  match g with
  | none => s
  | some g =>
    let n := if wasHeld = true then (group g s).outstanding else (group g s).outstanding - 1
    let s1 := modGroup g (fun x => { x with torn := true, outstanding := n }) s
    if n = 0 then endSweep g s1 else s1

/-- An entry in DRAINING with no job left reaches DISABLED, its write state NONE (R3; log entry 9); with its group's last member
the group timer stops (R23, R34). -/
def drained (e : EntryId) (s : State) : State :=
  let x := entry e s
  if x.enable = .draining ∧ x.refresh = .idle ∧ x.write ≠ .pending ∧ x.write ≠ .active then
    let s1 := modEntry e (fun x => { x with enable := .disabled, validity := .none, write := .none, faultMark := false }) s
    match x.cfg.groupId with
    | none => s1
    | some g => if memberCount g s1 = 0 then modGroup g (fun x => { x with dueTime := none }) s1 else s1
  else s

/-! ## Reports in flight -/

/-- The first report in flight to an entry, and the reports without it (R107: reports to one owner are taken in order). -/
def FirstReport (e : EntryId) (r : Report) (s s0 : State) : Prop :=
  ∃ before after, s.reports = before ++ r :: after ∧ (∀ d ∈ before, d.ref.entry? ≠ some e) ∧ r.ref.entry? = some e
    ∧ s0 = { s with reports := before ++ after }

/-- No FLUSHED completion of the same segment for the same group stands before this one (R66: they are taken in queue
order). -/
def InFlushOrder (c : Completion) (s : State) : Prop :=
  c.result = .flushed → c.tag ≠ none →
    ∀ before after, s.reports = before ++ .completed c :: after →
      ∀ d, .completed d ∈ before → d.result = .flushed → d.tag = c.tag → d.seg ≠ c.seg

/-! ## Segment Controllers, in the words of the rules -/

/-- Set requests taken at the Event Unit: the flags of the mask are set, or stay set (R152). -/
def noted (bits : BitVec 13) (s : State) : State := { s with flags := s.flags ||| bits }

/-- FOREIGN or RECEIVING: a foreign frame is in progress. -/
abbrev foreignNow (c : Controller) : Prop := c.state = .foreign ∨ c.state = .receiving

/-- The timebase has advanced by the limit since the value given (R79, R98, R104, R106, R109). -/
abbrev passed (since : Word) (ms : Nat) (s : State) : Prop := ms ≤ (s.timebase - since).toNat

/-- A clock-hold of the part's own frame has lasted the hold limit (R79). -/
def HeldTooLong (q : SegId) (s : State) : Prop :=
  ∃ since, (ctl q s).holdSince = some since ∧ passed since (ctl q s).cfg.holdLimit.toNat s

/-- The first bits of a byte in wire order, most significant first (R80), and 0 after them. -/
def leading (n : Nat) (b : Byte) : Byte := (b >>> (8 - n)) <<< (8 - n)

/-- Bit i of a byte in wire order, i from 0 (R80). -/
def wireBit (b : Byte) (i : Nat) : Bool := b.getLsbD (7 - i)

/-- A slot that has taken the report that ends its job (R124, the flag apart). -/
def endedSlot (r : Result) (acked received : BitVec 6) (used : BitVec 4) (bytes : List Byte) (x : Slot) : Slot :=
  { x with
    state := .done, cancelPending := false, result := r, acked := acked, received := received, attemptsUsed := used
    data := tabulate 64 fun i => if i.val < 32 then getAt x.data i else bytes.getD (i.val - 32) 0#8 }

/-- The bytes a completion carries (R107, R84): those read, with OK; for a write those of its verify read, or those sent; for a
slot those read; none where they are discarded. -/
def carried (q : SegId) (a : ActiveJob) (o : FrameOutcome) (s : State) : List Byte :=
  match a.job.ref with
  | .refresh _ => if o.result = .ok then o.bytes else []
  | .write e =>
    if a.frame = .verifyRead then
      if o.result = .lostArbitration ∨ o.result = .holdTimeout ∨ o.result = .lineStuck then [] else o.bytes
    else if o.result = .ok then (ctl q s).tx.toList.take (entry e s).cfg.length.toNat
    else []
  | .direct _ =>
    if o.result = .lostArbitration ∨ o.result = .holdTimeout ∨ o.result = .lineStuck then [] else o.bytes

/-- A completion has gone to its owner: a slot has taken it in the same event and is DONE (R118, R124), an entry's is in flight
(R107). -/
def delivered (c : Completion) (s : State) : State :=
  match c.ref with
  | .direct k =>
    noted 0x020#13 (modSlot k (endedSlot c.result c.acked c.received c.attemptsUsed c.bytes) s)
  | .refresh _ | .write _ => { s with reports := s.reports ++ [.completed c] }

/-- The completion of an active job goes to its owner and the controller lets go of the job, in one event (R107, R118). -/
def finished (q : SegId) (a : ActiveJob) (o : FrameOutcome) (used : BitVec 4) (s : State) : State :=
  let t :=
    delivered
      { ref := a.job.ref, tag := a.job.tag, seg := q, result := o.result, bytes := carried q a o s
        acked := o.acked, received := o.received, attemptsUsed := used } s
  { t with ctls := putAt s.ctls q { ctl q s with active := none, earlyEnd := none } }

/-- The attempts used that R104 counts: the attempts field plus 1. -/
def usedBy (a : ActiveJob) : BitVec 4 := a.job.attempts.setWidth 4 + 1#4

/-- An outcome with nothing on the wire behind it: counts 0, no bytes (Table 7.4). -/
def noFrame (r : Result) : FrameOutcome := { result := r, acked := 0#6, received := 0#6, bytes := [] }

/-- A job that a DIRECT slot owns. -/
def isDirect (j : Job) : Bool :=
  match j.ref with
  | .direct _ => true
  | .refresh _ | .write _ => false

/-- A flushed queue (R66): emptied, its streak 0; a DIRECT job's slot is DONE in the same event, the FLUSHED completions of
entry jobs are sent in queue order. -/
def flushed (q : SegId) (s : State) : State :=
  let jobs := (queue q s).urgent ++ (queue q s).routine
  { s with
    queues := putAt s.queues q { urgent := [], routine := [], streak := 0 }
    reports :=
      s.reports ++ (jobs.filter fun j => !isDirect j).map fun j =>
        .completed
          { ref := j.ref, tag := j.tag, seg := q, result := .flushed, bytes := [], acked := 0#6, received := 0#6
            attemptsUsed := 0#4 }
    slots := tabulate 8 fun k =>
      if jobs.any (hasRef (.direct k)) = true then endedSlot .flushed 0#6 0#6 0#4 [] (slot k s) else slot k s
    flags := if jobs.any isDirect = true then s.flags ||| 0x020#13 else s.flags }

/-- The fault streak after an attempt result (last column of Table 6.4, R103). -/
def newStreak (r : Result) (n : BitVec 4) : BitVec 4 :=
  if r = .ok ∨ r = .noDevice ∨ r = .dataRefused ∨ r = .readRefused ∨ r = .verifyMismatch then 0#4
  else if r = .busBusy ∨ r = .lineStuck ∨ r = .holdTimeout ∨ r = .segmentFault then if n = 15#4 then 15#4 else n + 1#4
  else n

/-- The attempt result is recorded: last result and streak (R94, R102, R103). -/
def resultTaken (q : SegId) (r : Result) (s : State) : State :=
  modCtl q (fun c => { c with lastResult := r, streak := newStreak r c.streak }) s

/-- The segment enters QUARANTINED (R108): the active job, if any, completes, a reception is cut, the queue is flushed, the
lines are released, and the event is requested. -/
def quarantined (q : SegId) (o : FrameOutcome) (s : State) : State :=
  let s1 :=
    match (ctl q s).active with
    | none => s
    | some a => finished q a o (usedBy a) s
  let s2 := flushed q { s1 with receptions := putAt s1.receptions q none }
  noted 0x200#13
    (modCtl q (fun c =>
      { c with
        state := .quarantined, busySince := none, recovery := none, own := .quiet, bus := .notKept
        traffic := noTraffic, holdSince := none
        byteInProgress := 0#8, bitCount := 0, earlyEnd := none, addressExpected := false }) s2)

/-- The start of the frame in use is driven (R97): ACTIVE, the bus BUSY, the check value at 0, no acknowledge given yet. -/
def started (q : SegId) (s : State) : State :=
  modCtl q (fun c =>
    { c with
      state := .active, own := .frame s.timebase, bus := .busy, busySince := none, traffic := noTraffic, holdSince := none
      acksGiven := [], checkValue := 0#8, byteInProgress := 0#8, bitCount := 0
      active := c.active.map fun a => { a with phase := .running } }) s

/-- The part is OFFLINE here: nothing driven, nothing sensed, no job, streak 0, timers stopped (R93, R112, R116). -/
def offline (c : Controller) : Controller :=
  { Controller.reset with cfg := c.cfg, lastResult := c.lastResult, tx := c.tx, rx := c.rx }

/-- A soft reset empties a queue (R73): no job is left, the streak is 0, and the slots of the DIRECT jobs taken out are FREE with
the values of Table 7.5. -/
def emptied (q : SegId) (s : State) : State :=
  { s with
    queues := putAt s.queues q { urgent := [], routine := [], streak := 0 }
    slots := tabulate 8 fun k =>
      if ∃ j ∈ (queue q s).urgent ++ (queue q s).routine, j.ref = .direct k then Slot.reset else slot k s }

/-- RESETTING ends, with RESET_DONE, once no delivery is left to take and every controller is OFFLINE (R151). -/
def resetDone (s : State) : State :=
  if s.undelivered = 0 ∧ ∀ p, (ctl p s).state = .offline then noted 0x1000#13 { s with resetting := false } else s

/-- STOPPING ends (R112, R116): OFFLINE and SEGMENT_STOPPED; once a soft reset has reached the controller no event of the segment,
its queue emptied, and RESET_DONE where that was what RESETTING waited for (R151). -/
def stopped (q : SegId) (s : State) : State :=
  let s1 := modCtl q offline s
  if s.resetting = true ∧ Delivery.controller q ∉ deliveriesLeft s then resetDone (emptied q s1) else noted 0x400#13 s1

/-- The traffic of a frame so far, and that which came since. -/
def soFar (q : SegId) (wire : Traffic) (s : State) : Traffic :=
  { acks := (ctl q s).traffic.acks ++ wire.acks, reads := (ctl q s).traffic.reads ++ wire.reads }

/-- The elements of the part's frame: its active job's, or those of the frame whose job a soft reset has dropped (R116). -/
def partFrame (q : SegId) (s : State) : List Element :=
  match (ctl q s).active with
  | some a => jobFrame a (ctl q s).tx s
  | none => (ctl q s).dropped

/-- The elements of a frame up to where it ends: with an early end requested, up to the boundary of the byte after which it ends
(R85). -/
def upToEnd (q : SegId) (els : List Element) (s : State) : List Element :=
  match (ctl q s).earlyEnd with
  | none => els
  | some n => els.take n

/-- The outcome of a frame of these elements, as the traffic gives it up to where the frame ends. -/
def runOn (q : SegId) (els : List Element) (wire : Traffic) (s : State) : FrameRun :=
  runFrame (upToEnd q els s) (soFar q wire s)

/-- The early end of the part's frame is requested (R85): it ends at the boundary of the byte in progress, which is the one
after those that have passed; a request that is pending already stands. -/
def endNext (q : SegId) (s : State) : Option Nat :=
  match (ctl q s).earlyEnd with
  | none => some ((runOn q (partFrame q s) noTraffic s).passed + 1)
  | some n => some n

/-- A frame or a stop attempt of the part is on the wire. -/
def onWire (c : Controller) : Prop := (∃ t, c.own = .frame t) ∨ ∃ t, c.own = .stopAttempt t

/-- A controller a soft reset reaches (R116): in STOPPING without its job while a frame, which is ended early at its next byte
boundary (R85), or a stop attempt is on the wire; OFFLINE otherwise. -/
def jobDropped (q : SegId) (s : State) : Controller :=
  let c := ctl q s
  match c.own with
  | .frame _ =>
    { c with
      state := .stopping, active := none, busySince := none, recovery := none, addressExpected := false
      earlyEnd := endNext q s, dropped := partFrame q s }
  | .stopAttempt _ =>
    { c with
      state := .stopping, active := none, busySince := none, recovery := none, addressExpected := false, earlyEnd := none }
  | .quiet | .startWait _ => offline c

/-- A block takes its delivery of a soft reset (R149), one fewer being left; the last one may end RESETTING (R151). -/
def resetTaken (d : Delivery) (s : State) : State :=
  let s0 := { s with undelivered := s.undelivered - 1 }
  match d with
  | .controller q =>
    let s1 :=
      { s0 with
        ctls := putAt s.ctls q (jobDropped q s), receptions := putAt s.receptions q none
        slots := tabulate 8 fun k =>
          if (ctl q s).active.map (fun a => a.job.ref) = some (.direct k) then Slot.reset else slot k s }
    if (jobDropped q s).state = .offline then emptied q s1 else s1
  | .queue q => emptied q s0
  | .mirrorAndScheduler =>
    { s0 with
      entries := tabulate 128 fun e =>
        { entry e s with
          enable := .disabled, validity := .none, refresh := .idle, write := .none, writeOvertaken := false
          refreshAgain := false, writeAgain := false, faultMark := false, held := Vector.replicate 32 0#8, dueTime := none }
      groups := tabulate 15 fun g => { Group.reset with period := (group g s).period }
      reports := [], notices := [] }
  | .slots => { s0 with slots := Vector.replicate 8 Slot.reset }
  | .listen =>
    { s0 with
      receptions := Vector.replicate 8 none, listen := tabulate 16 fun i => { listenEntry i s with enabled := false }
      ring := [], nextSequence := 0#16, lostCount := 0#16 }
  | .events => resetDone { s0 with flags := 0#13 }

/-- The outcome of the frame an active job has in use, as the traffic gives it. -/
def runOf (q : SegId) (a : ActiveJob) (wire : Traffic) (s : State) : FrameRun := runOn q (jobFrame a (ctl q s).tx s) wire s

/-- The frame outcome of a run with a result (R84). -/
def outcomeOf (r : FrameRun) (result : Result) : FrameOutcome :=
  { result := result, acked := BitVec.ofNat 6 r.acked, received := BitVec.ofNat 6 r.received.length, bytes := r.received }

/-- The part's frame has ended with its stop: the bus is FREE, the bytes read stand in the receive buffer and have been given
their acknowledges (R77, R82). -/
def closed (q : SegId) (r : FrameRun) (s : State) : State :=
  modCtl q (fun c =>
    { c with
      own := .quiet, bus := .free, traffic := noTraffic, holdSince := none, rx := fill 32 r.received
      acksGiven := r.given, checkValue := r.crc, byteInProgress := 0#8, bitCount := 0, earlyEnd := none }) s

/-- The job completes with an attempt's outcome and the controller goes on as R107 states. -/
def completes (q : SegId) (o : FrameOutcome) (s : State) : State := afterCompletion q (completeAttempt q o s)

/-- The elements a part sends; the others it reads (R82, R83). -/
def isSent (e : Element) : Bool :=
  match e with
  | .address _ _ | .offset _ | .sendData _ | .sendCheck => true
  | .readData | .readCheck => false

/-- The byte the running check value takes from an element that the part sends: none from the check byte itself (R86). -/
def sentByte (e : Element) : Option Byte :=
  match e with
  | .address b _ | .offset b | .sendData b => some b
  | .sendCheck | .readData | .readCheck => none

/-- The byte on the wire for an element that the part sends: of the check byte the running value (R86). -/
def outByte (e : Element) (crc : Byte) : Option Byte :=
  match e with
  | .address b _ | .offset b | .sendData b => some b
  | .sendCheck => some crc
  | .readData | .readCheck => none

/-- The part has released the data line at this point and compares there (R81): a 1 of a byte it sends that has not passed yet,
the refusal of the last byte it reads, and the release before a repeated start or a stop. With an early end requested the last
byte is the one at whose boundary the frame ends, and the stop follows it (R85). -/
def Compares (q : SegId) (els : List Element) (wire : Traffic) (p : LossPoint) (s : State) : Prop :=
  let r := runOn q els wire s
  match p with
  | .bit n =>
    ∃ e b, r.progress = .cut e ∧ outByte e r.crc = some b ∧ wireBit b n.val = true
      ∧ (wire = noTraffic → (ctl q s).bitCount ≤ n.val)
  | .refusal =>
    (∃ b, r.progress = .whole b)
      ∧ ((upToEnd q els s).getLast? = some .readData ∨ (upToEnd q els s).getLast? = some .readCheck)
  | .release =>
    ((∃ b, r.progress = .cut (.address b true)) ∧ (wire = noTraffic → (ctl q s).bitCount = 0))
      ∨ (∃ x, r.progress = .refused x) ∨ ∃ b, r.progress = .whole b

/-- The byte in progress after a loss and its count of bits (R81): the bits before the loss, which are the part's and the winner's
alike, and the bit of the loss, a 0. -/
def keptBits (r : FrameRun) (p : LossPoint) : Byte × Nat :=
  match p, r.progress with
  | .bit n, .cut e => (leading n.val ((outByte e r.crc).getD 0#8), n.val + 1)
  | _, _ => (0#8, 0)

/-- A loss within an address byte (R81). -/
def inAddress (r : FrameRun) (p : LossPoint) : Bool :=
  match p, r.progress with
  | .bit _, .cut (.address _ _) => true
  | _, _ => false

/-- A data byte in direction W (R83). -/
def isSentData (e : Element) : Bool :=
  match e with
  | .sendData _ => true
  | .address _ _ | .offset _ | .sendCheck | .readData | .readCheck => false

/-- One shift of the running value: toward its most significant bit, a 1 shifted out combined as 07h (R86). -/
def crcStep (v : Byte) : Byte := if v.getLsbD 7 = true then (v <<< 1) ^^^ 0x07#8 else v <<< 1

/-- Table 5.1. -/
def refusedAs (e : Element) : Result :=
  match e with
  | .address _ false => .noDevice
  | .address _ true => .readRefused
  | _ => .dataRefused

/-- The address byte for W and for R: twice the address, and that plus 1 (R80). -/
def wByte (a : DeviceAddr) : Byte := BitVec.ofNat 8 (2 * a.toNat)

/-- The address byte for direction R (R80). -/
def rByte (a : DeviceAddr) : Byte := BitVec.ofNat 8 (2 * a.toNat + 1)

/-- A recovery of the segment stands at a phase with its pulses counted (R109). -/
def recoveringAt (q : SegId) (p : RecoveryPhase) (n : Nat) (s : State) : State :=
  modCtl q (fun c => { c with recovery := some { phase := p, pulses := n } }) s

/-- The next release pulse, or after the 16th the line-clear hold (R109 steps 2 and 3). -/
def pulseOrHold (q : SegId) (n : Nat) (s : State) : State :=
  recoveringAt q (if n < 16 then .pulsing else .lineClear s.timebase) n s

/-- The result SEGMENT_FAULT is taken (R109). -/
def faulted (q : SegId) (s : State) : State := quarantined q (noFrame .segmentFault) (resultTaken q .segmentFault s)

/-- A recovery has succeeded: the bus is FREE; a held job's retry decision is taken now (R110). -/
def recovered (q : SegId) (s : State) : State :=
  let s1 := modCtl q (fun c => { c with state := .idle, bus := .free, recovery := none }) s
  match (ctl q s).active with
  | none => s1
  | some _ => retryOrComplete q (noFrame .lineStuck) s1

/-- An enabled entry whose mask includes the segment and whose address is the one given (R134). -/
def matchesListen (q : SegId) (a : DeviceAddr) (x : ListenEntry) : Prop :=
  x.enabled = true ∧ x.mask.getLsbD q.val = true ∧ x.address = a

/-- The entry used: the lowest-indexed that matches (R134). -/
def UsedEntry (q : SegId) (a : DeviceAddr) (i : ListenId) (s : State) : Prop :=
  matchesListen q a (listenEntry i s) ∧ ∀ j, j < i → ¬matchesListen q a (listenEntry j s)

/-- Data bytes received (R91): bytes 1 to 32 are stored and acknowledged, every later one is refused and marks the reception as
overran. -/
def received (bytes : List Byte) (c : Controller) : Controller :=
  let all := c.rx.toList.take c.rxCount ++ bytes
  { c with
    rx := fill 32 (all.take 32), rxCount := min all.length 32, overran := c.overran || decide (32 < all.length)
    acksGiven := c.acksGiven ++ (List.range bytes.length).map fun i => decide (c.rxCount + i < 32) }

end Sys2Proof.Spec

open Sys2Proof Sys2Proof.Machine Sys2Proof.Safety Sys2Proof.Spec

/-! ## Steps -/

/-- A step takes the command at the front of the queue and runs it on the state with the queue's rest. With an empty queue it
takes the next delivery of a soft reset in progress, which is the model's choice (log entries 4 and 32), and idles where none
waits or RESETn is asserted. No command faults and none is refused. -/
def Obligations.StepRunsTheFrontCommand : Prop :=
  (∀ (c : Instr) (rest : List Instr) (s : State),
      step { s with pending := c :: rest } = exec c { s with pending := rest })
    ∧ (∀ s : State, s.pending = [] → s.inReset = false → step s = .next (nextDelivery s))
    ∧ (∀ s : State, s.pending = [] → s.inReset = true ∨ s.resetting = false ∨ s.undelivered = 0 → step s = .next s)
    ∧ ∀ (c : Instr) (s : State), ∃ t, exec c s = .next t

/-! ## Resets and time -/

/-- The values the after-reset tables give under "After pin reset", the timers stopped and no byte in progress; what the model
keeps of a frame and of a reception beside them is empty (log entry 13). -/
def Obligations.ValuesAfterPinReset : Prop :=
  let s := State.reset
  (s.inReset = false ∧ s.timebase = 0#32 ∧ s.resetting = false ∧ s.undelivered = 0)
    ∧ (∀ e, (entry e s).enable = .disabled ∧ (entry e s).validity = .none ∧ (entry e s).refresh = .idle
        ∧ (entry e s).write = .none ∧ (entry e s).writeOvertaken = false ∧ (entry e s).refreshAgain = false
        ∧ (entry e s).writeAgain = false ∧ (entry e s).lastRefresh = .noneRecorded
        ∧ (entry e s).lastWrite = .noneRecorded ∧ (entry e s).missed = 0#8 ∧ (entry e s).publishSeq = 0#16
        ∧ (entry e s).sweepNumber = 0#16 ∧ (entry e s).publishTime = 0#32 ∧ (entry e s).faultMark = false
        ∧ (entry e s).dueTime = none ∧ readLoc (.entryConfig0 e) s = 0#32 ∧ readLoc (.entryConfig1 e) s = 0#32
        ∧ readLoc (.entrySettle e) s = 0#32
        ∧ ∀ i, getAt (entry e s).published i = 0#8 ∧ getAt (entry e s).staging i = 0#8 ∧ getAt (entry e s).held i = 0#8)
    ∧ (∀ g, (group g s).period = 0#16 ∧ (group g s).state = .idle ∧ (group g s).outstanding = 0
        ∧ (group g s).torn = false ∧ (group g s).lastTorn = false ∧ (group g s).sweepAgain = false
        ∧ (group g s).sweepNumber = 0#16 ∧ (group g s).missed = 0#8 ∧ (group g s).lastPublish = 0#32
        ∧ (group g s).dueTime = none)
    ∧ (∀ q, (queue q s).urgent = [] ∧ (queue q s).routine = [] ∧ (queue q s).streak = 0)
    ∧ (∀ q, (ctl q s).state = .offline ∧ (ctl q s).active = none ∧ (ctl q s).streak = 0#4
        ∧ (ctl q s).lastResult = .noneRecorded ∧ (ctl q s).bus = .notKept ∧ (ctl q s).checkValue = 0#8
        ∧ (ctl q s).busySince = none ∧ (ctl q s).recovery = none ∧ (ctl q s).own = .quiet
        ∧ (ctl q s).byteInProgress = 0#8 ∧ (ctl q s).bitCount = 0 ∧ (ctl q s).traffic = noTraffic
        ∧ (ctl q s).holdSince = none ∧ (ctl q s).rxCount = 0 ∧ (ctl q s).overran = false ∧ (ctl q s).acksGiven = []
        ∧ (ctl q s).addressExpected = false ∧ (ctl q s).dropped = [] ∧ (ctl q s).stopReleased = false
        ∧ (ctl q s).earlyEnd = none ∧ driven q s = (.released, .released) ∧ sensesLines (ctl q s) = false
        ∧ (ctl q s).cfg
          = { speed := 0#2, retryLimit := 2#3, threshold := 4#4, backoff := 1#8, holdLimit := 20#8, busyLimit := 50#8 }
        ∧ ∀ i, getAt (ctl q s).tx i = 0#8 ∧ getAt (ctl q s).rx i = 0#8)
    ∧ (∀ k, (slot k s).state = .free ∧ (slot k s).cancelPending = false ∧ (slot k s).result = .noneRecorded
        ∧ (slot k s).acked = 0#6 ∧ (slot k s).received = 0#6 ∧ (slot k s).attemptsUsed = 0#4
        ∧ readLoc (.slotDesc0 k) s = 0#32 ∧ readLoc (.slotDesc1 k) s = 0#32 ∧ ∀ i, getAt (slot k s).data i = 0#8)
    ∧ (∀ i, (listenEntry i s).enabled = false ∧ readLoc (.listenFields i) s = 0#32)
    ∧ (∀ q, reception q s = none)
    ∧ s.ring = [] ∧ s.nextSequence = 0#16 ∧ s.lostCount = 0#16
    ∧ s.flags = 0#13 ∧ s.enables = 0#13 ∧ intAsserted s = false
    ∧ s.command = 0#32 ∧ readLoc (.global .result) s = 0#32 ∧ s.result.outcome = .noCommand
    ∧ readLoc (.global .accessRecord) s = 0#32 ∧ s.accessCount = 0#16 ∧ s.detailSelect = 0

/-- R160: the assertion of RESETn puts every block at its pin-reset values, from any state; while it is asserted host writes
change nothing, reads return 0, the timebase stays, INTn is deasserted and the lines are released; the release lets the part
begin from those values, and the timebase counts. What passed on the lines before a tick is taken with it (log entry 13), and
reaches one controller for each report. -/
def Obligations.PinResetHoldsTheWholePart : Prop :=
  ∀ s : State,
    exec .pinReset s
        = .next { State.reset with inReset := true, pending := s.pending, freeIndex := s.freeIndex }
      ∧ exec .pinResetRelease s = .next { s with inReset := false }
      ∧ (s.inReset = true →
          (∀ i, isHostWrite i = true → exec i s = .next s)
            ∧ (∀ a, exec (.unmappedRead a) s = .next { s with readData := 0#32 })
            ∧ ∀ reports, exec (.timebaseTick reports) s = .next s)
      ∧ (s.inReset = true → HeldInReset s →
          s.timebase = 0#32 ∧ intAsserted s = false ∧ ∀ q, driven q s = (.released, .released))
      ∧ (s.inReset = false →
          exec (.timebaseTick []) s = .next { s with timebase := s.timebase + 1#32 }
            ∧ (∀ reports, exec (.timebaseTick reports) s
                = .next { linesPass reports s with timebase := s.timebase + 1#32 })
            ∧ ∀ w reports, ∃ c : Controller, c.cfg = (ctl w.seg s).cfg ∧ c.state = (ctl w.seg s).state
                ∧ exec (.timebaseTick (w :: reports)) s
                  = exec (.timebaseTick reports) { s with ctls := putAt s.ctls w.seg c })

/-- While RESETn is asserted every block holds its pin-reset values, whatever is commanded (R160). The queue of commands and
the index of the free value are not the part's (log entry 22). -/
def Obligations.HeldInResetIsKept : Prop :=
  ∀ s t : State, HeldInReset s → step s = .next t → HeldInReset t

/-! ## The Host Port -/

/-- Table 10.1 (R157): the first row whose condition holds decides a write, an unmapped read returns 0, and an access error
changes the record, the count and ACCESS_ERROR only. A read of group record 0 and a full write of the command word while
RESETTING are no access errors. -/
def Obligations.AccessErrorsFollowTheTable : Prop :=
  ∀ (a : Addr) (be : BitVec 4) (data : Word) (s : State), s.inReset = false →
    (locate a = none →
        exec (.hostWrite a be data) s = .next (errorTaken a true .unmapped s)
          ∧ exec (.unmappedRead a) s = .next (errorTaken a false .unmapped { s with readData := 0#32 }))
      ∧ (∀ l, locate a = some l → l.kind = .readOnly →
          exec (.hostWrite a be data) s = .next (errorTaken a true .readOnly s))
      ∧ (∀ l, locate a = some l → l.kind = .fullWord → be ≠ 0xF#4 →
          exec (.hostWrite a be data) s = .next (errorTaken a true .partialWrite s))
      ∧ (∀ l, locate a = some l → l.kind ≠ .readOnly → (l.kind = .fullWord → be = 0xF#4) → s.resetting = true →
          l ≠ .global .command → l ≠ .global .flags → (l.kind = .byteWritable → be ≠ 0#4) →
          exec (.hostWrite a be data) s = .next (errorTaken a true .resetting s))
      ∧ (∀ l, locate a = some l → (l.kind = .fullWord → be = 0xF#4) → s.resetting = false → Locked l s →
          (l.kind = .byteWritable → be ≠ 0#4) →
          exec (.hostWrite a be data) s = .next (errorTaken a true .locked s))
      ∧ (∀ e w, locate a = some (.staging e w) → be ≠ 0#4 → s.resetting = false → (entry e s).cfg.mode = 0#2 →
          exec (.hostWrite a be data) s = .next (errorTaken a true .readMode s))
      ∧ (locate a = some .groupZero → exec (.unmappedRead a) s = .next { s with readData := 0#32 })
      ∧ (locate a = some (.global .command) → s.resetting = true →
          ∃ t, exec (.hostWrite a 0xF#4 data) s = .next t ∧ t.command = data ∧ t.result.outcome = .refused
            ∧ t.accessCount = s.accessCount ∧ t.accessRecord = s.accessRecord ∧ t.flags = s.flags)

/-- A stored write of a configuration word, a descriptor word, listen fields or the detail select word is read back in the
bits that carry a writable field; every other word of the window reads as before, but for the two detail words when another
entry is selected; and no state of the part changes but that record's configuration. -/
def Obligations.ConfigurationWritesReadBack : Prop :=
  ∀ (a : Addr) (l : Loc) (m data : Word) (s : State), Ready s → locate a = some l → writableBits l = some m →
    ¬ Locked l s →
    ∃ t, exec (.hostWrite a 0xF#4 data) s = .next t
      ∧ readLoc l t = (data &&& m) ||| (readLoc l s &&& ~~~m)
      ∧ (∀ l', l' ≠ l → (l = .global .detailSelect → l' ≠ .global .detail0 ∧ l' ≠ .global .detail1) →
          readLoc l' t = readLoc l' s)
      ∧ t = { s with
              entries := t.entries, ctls := t.ctls, slots := t.slots, listen := t.listen, detailSelect := t.detailSelect }
      ∧ (∀ e, entry e t = { entry e s with cfg := (entry e t).cfg })
      ∧ (∀ q, ctl q t = { ctl q s with cfg := (ctl q t).cfg })
      ∧ (∀ k, (slot k t).data = (slot k s).data ∧ readLoc (.slotStatus k) t = readLoc (.slotStatus k) s)

/-- R48 for the two modes with committed writes and for READ mode: each enabled byte lane replaces its byte and the other bytes
stay; in READ mode, and while RESETTING, a write with a lane enabled is dropped with an access error. The stored mode decides,
in every enable state and write state. -/
def Obligations.StagingWritesAreStoredByLane : Prop :=
  ∀ (e : EntryId) (w : Fin 8) (be : BitVec 4) (data : Word) (s : State), s.inReset = false →
    (s.resetting = false → (entry e s).cfg.mode = 1#2 ∨ (entry e s).cfg.mode = 2#2 →
        ∃ b, exec (.stagingBufferWrite e w be data) s = .next (modEntry e (fun x => { x with staging := b }) s)
          ∧ ∀ i : Fin 32, getAt b i
            = if i.val / 4 = w.val ∧ be.getLsbD (i.val % 4) = true then data.extractLsb' (8 * (i.val % 4)) 8
              else getAt (entry e s).staging i)
      ∧ (s.resetting = false → be ≠ 0#4 → (entry e s).cfg.mode = 0#2 →
          exec (.stagingBufferWrite e w be data) s
            = .next (errorTaken (BitVec.ofNat 14 (0x2000 + 32 * e.val + 4 * w.val)) true .readMode s))
      ∧ (s.resetting = true → be ≠ 0#4 →
          exec (.stagingBufferWrite e w be data) s
            = .next (errorTaken (BitVec.ofNat 14 (0x2000 + 32 * e.val + 4 * w.val)) true .resetting s))

/-- A write to the data area of a FREE slot is stored lane by lane and changes nothing else, and a write with no lane enabled
stores nothing (R120, R156). The model's choices: a staging write under the stored mode code that names no mode is stored
(log entry 28), and a byte-writable write with no lane enabled that Table 10.1 turns away is an access error all the same
(log entry 14). -/
def Obligations.SlotDataWritesAreStoredByLane : Prop :=
  ∀ (k : SlotId) (w : Fin 16) (a : Addr) (be : BitVec 4) (data : Word) (s : State), s.inReset = false →
    locate a = some (.slotData k w) →
    (s.resetting = false → (slot k s).state = .free →
        ∃ b, exec (.hostWrite a be data) s = .next (modSlot k (fun x => { x with data := b }) s)
          ∧ ∀ i : Fin 64, getAt b i
            = if i.val / 4 = w.val ∧ be.getLsbD (i.val % 4) = true then data.extractLsb' (8 * (i.val % 4)) 8
              else getAt (slot k s).data i)
      ∧ (s.resetting = false → (slot k s).state = .free → be = 0#4 → exec (.hostWrite a be data) s = .next s)
      ∧ (∀ e v, s.resetting = false → (entry e s).cfg.mode = 3#2 →
          ∃ b, exec (.stagingBufferWrite e v be data) s = .next (modEntry e (fun x => { x with staging := b }) s)
            ∧ ∀ i : Fin 32, getAt b i
              = if i.val / 4 = v.val ∧ be.getLsbD (i.val % 4) = true then data.extractLsb' (8 * (i.val % 4)) 8
                else getAt (entry e s).staging i)
      ∧ (s.resetting = false → (slot k s).state ≠ .free →
          exec (.hostWrite a 0#4 data) s = .next (errorTaken a true .locked s))
      ∧ (∀ e v, s.resetting = false → (entry e s).cfg.mode = 0#2 →
          exec (.stagingBufferWrite e v 0#4 data) s
            = .next (errorTaken (BitVec.ofNat 14 (0x2000 + 32 * e.val + 4 * v.val)) true .readMode s))
      ∧ (s.resetting = true →
          exec (.hostWrite a 0#4 data) s = .next (errorTaken a true .resetting s)
            ∧ ∀ e v, exec (.stagingBufferWrite e v 0#4 data) s
              = .next (errorTaken (BitVec.ofNat 14 (0x2000 + 32 * e.val + 4 * v.val)) true .resetting s))

/-- The rows for single words are host writes of those words, and a full write of the command word is the command its code
names. The two commands that sense lines take what the lines show from the free value there (log entry 3), and a SOFT_RESET so
written takes all its deliveries before the next command (log entry 32). -/
def Obligations.RowsAreWritesOfTheirWords : Prop :=
  (∀ (e : EntryId) (w : Fin 8) (be : BitVec 4) (d : Word) (s : State),
      exec (.stagingBufferWrite e w be d) s
        = exec (.hostWrite (BitVec.ofNat 14 (0x2000 + 32 * e.val + 4 * w.val)) be d) s)
    ∧ (∀ (r : Fin 16) (be : BitVec 4) (d : Word) (s : State),
      exec (.groupPeriodWrite r be d) s = exec (.hostWrite (BitVec.ofNat 14 (0x0200 + 16 * r.val)) be d) s)
    ∧ (∀ (be : BitVec 4) (d : Word) (s : State),
      exec (.eventFlagWrite be d) s = exec (.hostWrite 0x0010#14 be d) s
        ∧ exec (.eventEnableWrite be d) s = exec (.hostWrite 0x0014#14 be d) s
        ∧ exec (.accessErrorRecordClear be d) s = exec (.hostWrite 0x0018#14 be d) s
        ∧ exec (.accessErrorCountClear be d) s = exec (.hostWrite 0x001C#14 be d) s)
    ∧ (∀ (i : Instr) (code arg : Byte) (tag : Half) (s : State), commandOf i = some (code, arg, tag) →
      code ≠ 0x20#8 → code ≠ 0x22#8 → (∀ a t reports taken, i = .softReset a t reports taken → taken = 20) →
        exec (.hostWrite 0x0008#14 0xF#4 (word code arg tag)) (afterReports i s) = exec i s)
    ∧ ∀ (arg : Byte) (tag : Half) (s : State), s.inReset = false →
      let drawn := { s with freeIndex := s.freeIndex + 1 }
      ∃ sense : SegmentSense,
        exec (.hostWrite 0x0008#14 0xF#4 (word 0x20#8 arg tag)) s = exec (.segmentOnline arg tag sense) drawn
          ∧ exec (.hostWrite 0x0008#14 0xF#4 (word 0x22#8 arg tag)) s
            = exec (.segmentRestore arg tag sense.recovery) drawn

/-- R33: what a write of a group's period word does, by the group's timer, its member count and the new period; partial
writes, writes while RESETTING and writes to the record's other words are access errors, and so is record 0. That the timer
starts with its first expiry in the same event is the model's reading (log entry 5). -/
def Obligations.GroupPeriodWrites : Prop :=
  ∀ (g : GroupId) (r : Fin 16) (a : Addr) (be : BitVec 4) (data : Word) (s : State), s.inReset = false →
    r.val = g.val + 1 →
    let s1 := modGroup g (fun x => { x with period := data.extractLsb' 0 16 }) s
    (be = 0xF#4 → s.resetting = false →
        ((group g s).dueTime ≠ none → exec (.groupPeriodWrite r be data) s = .next s1)
          ∧ (memberCount g s = 0 → exec (.groupPeriodWrite r be data) s = .next s1)
          ∧ (data.extractLsb' 0 16 = 0#16 → exec (.groupPeriodWrite r be data) s = .next s1)
          ∧ ((group g s).dueTime = none → 1 ≤ memberCount g s → data.extractLsb' 0 16 ≠ 0#16 →
              exec (.groupPeriodWrite r be data) s = .next (groupExpiry g s.timebase s1)))
      ∧ (be ≠ 0xF#4 → exec (.groupPeriodWrite r be data) s
          = .next (errorTaken (BitVec.ofNat 14 (0x0200 + 16 * r.val)) true .partialWrite s))
      ∧ (be = 0xF#4 → s.resetting = true → exec (.groupPeriodWrite r be data) s
          = .next (errorTaken (BitVec.ofNat 14 (0x0200 + 16 * r.val)) true .resetting s))
      ∧ exec (.groupPeriodWrite 0 be data) s = .next (errorTaken 0x0200#14 true .readOnly s)
      ∧ (locate a = some (.groupStatus g) ∨ locate a = some (.groupCounts g) ∨ locate a = some (.groupPublish g) →
          exec (.hostWrite a be data) s = .next (errorTaken a true .readOnly s))

/-- R152, R153: a host write of the flag word clears each flag written 1 and leaves the others, in every state of the Command
Port; a full write of the enable word stores the thirteen enables; partial writes, and writes of the enables while RESETTING,
are access errors. INTn is asserted exactly when some flag and its enable are both set. A set request sets its own bit. -/
def Obligations.FlagsEnablesAndInterruptOutput : Prop :=
  ∀ (be : BitVec 4) (data : Word) (s : State), s.inReset = false →
    (be = 0xF#4 → ∃ f, exec (.eventFlagWrite be data) s = .next { s with flags := f }
        ∧ ∀ i, i < 13 → f.getLsbD i = (s.flags.getLsbD i && !data.getLsbD i))
      ∧ (be ≠ 0xF#4 → exec (.eventFlagWrite be data) s = .next (errorTaken 0x0010#14 true .partialWrite s))
      ∧ (be = 0xF#4 → s.resetting = false →
          exec (.eventEnableWrite be data) s = .next { s with enables := data.extractLsb' 0 13 })
      ∧ (be ≠ 0xF#4 → exec (.eventEnableWrite be data) s = .next (errorTaken 0x0014#14 true .partialWrite s))
      ∧ (be = 0xF#4 → s.resetting = true →
          exec (.eventEnableWrite be data) s = .next (errorTaken 0x0014#14 true .resetting s))
      ∧ (intAsserted s = true ↔ ∃ i, i < 13 ∧ s.flags.getLsbD i = true ∧ s.enables.getLsbD i = true)
      ∧ raise .entryFault s = noted 0x001#13 s ∧ raise .writeDone s = noted 0x002#13 s
      ∧ raise .verifyMismatch s = noted 0x004#13 s ∧ raise .groupPublished s = noted 0x008#13 s
      ∧ raise .groupTorn s = noted 0x010#13 s ∧ raise .slotDone s = noted 0x020#13 s
      ∧ raise .captureArrived s = noted 0x040#13 s ∧ raise .captureLost s = noted 0x080#13 s
      ∧ raise .queuePressure s = noted 0x100#13 s ∧ raise .segmentQuarantined s = noted 0x200#13 s
      ∧ raise .segmentStopped s = noted 0x400#13 s ∧ raise .accessError s = noted 0x800#13 s
      ∧ raise .resetDone s = noted 0x1000#13 s

/-- A stored write of the record word clears the record, one of the count word sets the count to 0; while RESETTING both are
dropped and are access errors themselves (R158). -/
def Obligations.AccessErrorWordsAreCleared : Prop :=
  ∀ (be : BitVec 4) (data : Word) (s : State), s.inReset = false →
    (be = 0xF#4 → s.resetting = false →
        exec (.accessErrorRecordClear be data) s
            = .next { s with accessRecord := { valid := false, isWrite := false, reason := .none, address := 0#14 } }
          ∧ exec (.accessErrorCountClear be data) s = .next { s with accessCount := 0#16 })
      ∧ (be = 0xF#4 → s.resetting = true →
          exec (.accessErrorRecordClear be data) s = .next (errorTaken 0x0018#14 true .resetting s)
            ∧ exec (.accessErrorCountClear be data) s = .next (errorTaken 0x001C#14 true .resetting s))
      ∧ (be ≠ 0xF#4 →
          exec (.accessErrorRecordClear be data) s = .next (errorTaken 0x0018#14 true .partialWrite s)
            ∧ exec (.accessErrorCountClear be data) s = .next (errorTaken 0x001C#14 true .partialWrite s))

/-! ## The Command Port -/

/-- R147: the checks of the Command Port in their order. The first that fails decides the result and changes nothing else; a
command that passes them is answered by its owner, ACCEPTED or REFUSED with a reason. What has passed on the lines before a
command has been taken by then (log entry 13). -/
def Obligations.CommandPortChecks : Prop :=
  ∀ (i : Instr) (code arg : Byte) (tag : Half) (s : State), s.inReset = false →
    (code ∉ knownCodes → exec (.unknownCommand code arg tag) s = .next (refused code arg tag .unknownCommand s))
      ∧ (commandOf i = some (code, arg, tag) → s.resetting = true →
          exec i s = .next (refused code arg tag .resetting (afterReports i s)))
      ∧ (commandOf i = some (code, arg, tag) → s.resetting = false → ¬ ArgInRange i arg →
          exec i s = .next (refused code arg tag .badIndex (afterReports i s)))
      ∧ (commandOf i = some (code, arg, tag) → s.resetting = false → ArgInRange i arg →
          ∃ t, exec i s = .next t ∧ t.command = word code arg tag ∧ t.result.code = code ∧ t.result.tag = tag
            ∧ (t.result.outcome = .accepted ∧ t.result.reason = .none
              ∨ t.result.outcome = .refused ∧ t.result.reason ≠ .none))

/-! ## Requests at a Segment Queue -/

/-- R63 to R65: the answers to admission, promotion and removal requests and what each does to the queue. An admission asks
the first row of Table 4.3 that holds; a promotion and a removal find at most the one job named. -/
def Obligations.RequestsAtAQueue : Prop :=
  ∀ (q : SegId) (s : State),
    (∀ j, (requestAdmission q j s).2 = answerOf q j.cls s
        ∧ (requestAdmission q j s).1 = if answerOf q j.cls s = .admitted then joined q j s else s)
      ∧ (∀ e b j a, (queue q s).routine = b ++ j :: a → hasRef (.refresh e) j = true →
          b.any (hasRef (.refresh e)) = false →
          promote q e s
            = (setQueue q
                { queue q s with urgent := (queue q s).urgent ++ [{ j with cls := .urgent }], routine := b ++ a } s, true))
      ∧ (∀ e, (queue q s).routine.any (hasRef (.refresh e)) = false →
          promote q e s = (s, (queue q s).urgent.any (hasRef (.refresh e))))
      ∧ ∀ r, (removeJob q r s).2 = holds r (queue q s)
          ∧ (removeJob q r s).1
            = if holds r (queue q s) = true then
                left q r s
              else s

/-! ## The entry commands -/

/-- R20: the refusals of ENTRY_ENABLE, the entry's record when it is accepted, and what the Refresh Scheduler does in the
same event. The expiry at a group's timer start is the one R35 states (Obligations.SweepRequests); that a timer starts with
its first expiry in the same event is the model's reading (log entry 5). -/
def Obligations.EntryEnableStartsTheEntry : Prop :=
  ∀ (e : EntryId) (tag : Half) (s : State), Ready s →
    let c := (entry e s).cfg
    let valid := 1 ≤ c.length.toNat ∧ c.length.toNat ≤ 32 ∧ c.offsetWidth ≠ 3#2 ∧ c.mode ≠ 3#2
      ∧ (c.group ≠ 0#4 → c.mode = 0#2) ∧ (c.verify = true → c.mode = 2#2)
    let run := exec (.entryEnable (indexByte e) tag) s
    let s1 := modEntry e (fun x =>
      { x with
        enable := .enabled, validity := .none, publishSeq := 0#16, sweepNumber := 0#16, publishTime := 0#32
        missed := 0#8, published := Vector.replicate 32 0#8, refresh := .idle, write := .none, writeOvertaken := false
        refreshAgain := false, writeAgain := false, lastRefresh := .noneRecorded, lastWrite := .noneRecorded }) s
    ((entry e s).enable ≠ .disabled → run = .next (refused 0x01#8 (indexByte e) tag .badState s))
      ∧ ((entry e s).enable = .disabled → ¬valid → run = .next (refused 0x01#8 (indexByte e) tag .badConfig s))
      ∧ ((entry e s).enable = .disabled → valid → c.group = 0#4 → c.period = 0#16 →
          run = .next (accepted 0x01#8 (indexByte e) tag s1))
      ∧ ((entry e s).enable = .disabled → valid → c.group = 0#4 → c.period ≠ 0#16 →
          run = .next (accepted 0x01#8 (indexByte e) tag
            (requested e .routine none
              (modEntry e (fun x => { x with dueTime := some (s.timebase + x.cfg.period.setWidth 32) }) s1))))
      ∧ (∀ g, (entry e s).enable = .disabled → valid → c.groupId = some g →
          memberCount g s1 ≠ 1 ∨ (group g s).period = 0#16 → run = .next (accepted 0x01#8 (indexByte e) tag s1))
      ∧ ∀ g, (entry e s).enable = .disabled → valid → c.groupId = some g →
          memberCount g s1 = 1 → (group g s).period ≠ 0#16 →
          run = .next (answered 0x01#8 tag .accepted .none
            (groupExpiry g s.timebase { s1 with command := word 0x01#8 (indexByte e) tag }))

/-- R31: ENTRY_REFRESH by the enable state, the group and the refresh activity, with the answers of the queue (R30, R64). -/
def Obligations.EntryRefreshByActivity : Prop :=
  ∀ (e : EntryId) (tag : Half) (s : State), Ready s →
    let run := exec (.entryRefresh (indexByte e) tag) s
    let acc := fun t => Host.Outcome.next (accepted 0x03#8 (indexByte e) tag t)
    let rej := fun r t => Host.Outcome.next (refused 0x03#8 (indexByte e) tag r t)
    ((entry e s).enable ≠ .enabled → run = rej .badState s)
      ∧ ((entry e s).enable = .enabled → (entry e s).cfg.group ≠ 0#4 → run = rej .grouped s)
      ∧ ((entry e s).enable = .enabled → (entry e s).cfg.group = 0#4 →
          ((entry e s).refresh = .idle →
              (answerOf (entry e s).cfg.seg .urgent s = .admitted → run = acc (requested e .urgent none s))
                ∧ (answerOf (entry e s).cfg.seg .urgent s = .full → run = rej .queueFull (requested e .urgent none s))
                ∧ (answerOf (entry e s).cfg.seg .urgent s = .down →
                    run = rej .segmentDown (requested e .urgent none s)))
            ∧ ((entry e s).refresh ≠ .idle → run = acc (demanded e s)))

/-- R49 with Table 3.1, and the effect of an accepted commit on the refresh (R50). -/
def Obligations.EntryCommitByWriteState : Prop :=
  ∀ (e : EntryId) (tag : Half) (s : State), Ready s →
    let q := (entry e s).cfg.seg
    let run := exec (.entryCommit (indexByte e) tag) s
    let acc := fun t => Host.Outcome.next (accepted 0x04#8 (indexByte e) tag t)
    let rej := fun r => Host.Outcome.next (refused 0x04#8 (indexByte e) tag r s)
    let overtake := modEntry e fun x =>
      { x with
        writeOvertaken :=
          x.writeOvertaken || (x.cfg.group == 0#4 && (x.refresh == .queued || x.refresh == .active)) }
    let down := (ctl q s).state = .offline ∨ (ctl q s).state = .quarantined ∨ (ctl q s).state = .stopping
    ((entry e s).enable ≠ .enabled → run = rej .badState)
      ∧ ((entry e s).enable = .enabled → (entry e s).cfg.mode = 0#2 → run = rej .notWritable)
      ∧ ((entry e s).enable = .enabled → (entry e s).cfg.mode ≠ 0#2 → down → run = rej .segmentDown)
      ∧ ((entry e s).enable = .enabled → (entry e s).cfg.mode ≠ 0#2 → ¬down →
          ((entry e s).write = .pending → run = acc (overtake s))
            ∧ ((entry e s).write = .active → run = acc (overtake (modEntry e (fun x => { x with writeAgain := true }) s)))
            ∧ ((entry e s).write ≠ .pending → (entry e s).write ≠ .active →
                (32 ≤ occupancy (queue q s) → run = rej .queueFull)
                  ∧ (occupancy (queue q s) < 32 →
                      run = acc (overtake (modEntry e (fun x => { x with write := .pending }) (joined q (writeJob e) s))))))

/-- R18, R19: ENTRY_ACK_FAULT clears the mark in every enable state and changes nothing else; bit n of the bitmap is entry n's
mark. -/
def Obligations.AcknowledgeClearsTheMark : Prop :=
  (∀ (e : EntryId) (tag : Half) (s : State), Ready s →
      exec (.entryAckFault (indexByte e) tag) s
        = .next (accepted 0x05#8 (indexByte e) tag (modEntry e (fun x => { x with faultMark := false }) s)))
    ∧ ∀ (k : Fin 4) (j : Fin 32) (s : State),
      (readLoc (.faultBitmap k) s).getLsbD j.val = (entry ⟨32 * k.val + j.val, by omega⟩ s).faultMark

/-- R28, R29: an expiry of a running due timer of an ENABLED entry. The due time is taken as reached while it is not ahead of
the timebase (log entry 6); otherwise the event does not take place. -/
def Obligations.EntryDueExpiryCoalesces : Prop :=
  ∀ (e : EntryId) (s : State), s.inReset = false →
    let run := exec (.entryDueExpiry e) s
    (∀ due, (entry e s).dueTime = some due → (entry e s).enable = .enabled → (s.timebase - due).toNat < 2 ^ 31 →
        let s1 := modEntry e (fun x => { x with dueTime := some (due + x.cfg.period.setWidth 32) }) s
        ((entry e s).refresh = .idle → run = .next (requested e .routine none s1))
          ∧ ((entry e s).refresh = .queued ∨ (entry e s).refresh = .active →
              run = .next (modEntry e (fun x => { x with missed := oneMore x.missed }) s1)))
      ∧ ((entry e s).dueTime = none → run = .next s)
      ∧ (∀ due, (entry e s).dueTime = some due → 2 ^ 31 ≤ (s.timebase - due).toNat → run = .next s)

/-- R21, R22: ENTRY_DISABLE, step by step, with the removal answers and the withdrawals it takes, and the record it leaves:
DISABLED at once exactly where no job is left (R23), its write state then NONE (R3; log entry 9). What no step names is kept.
The model's reading: a HELD member's withdrawal leaves the outstanding count, as R41 says, against the last words of R21 step 5
(log entry 24). -/
def Obligations.EntryDisableDrainsTheEntry : Prop :=
  ∀ (e : EntryId) (tag : Half) (s : State), Ready s →
    let x := entry e s
    let q := x.cfg.seg
    let run := exec (.entryDisable (indexByte e) tag) s
    (x.enable ≠ .enabled → run = .next (refused 0x02#8 (indexByte e) tag .badState s))
      ∧ (x.enable = .enabled →
          let s1 := modEntry e (fun x =>
            { x with
              enable := .draining, writeOvertaken := false, refreshAgain := false, writeAgain := false, dueTime := none })
            (issued 0x02#8 (indexByte e) tag s)
          let s2 :=
            if x.refresh = .queued ∧ holds (.refresh e) (queue q s1) = true then
              withdrawn x.cfg.groupId false
                (modEntry e (fun x => { x with refresh := .idle }) (left q (.refresh e) s1))
            else s1
          let s3 :=
            if x.write = .pending ∧ holds (.write e) (queue q s2) = true then
              modEntry e (fun x => { x with write := .none }) (left q (.write e) s2)
            else s2
          let s4 := if x.refresh = .held then withdrawn x.cfg.groupId true (modEntry e released s3) else s3
          run = .next (answered 0x02#8 tag .accepted .none (drained e s4)))
      ∧ (x.enable = .enabled →
          let r :=
            if x.refresh = .held ∨ x.refresh = .queued ∧ holds (.refresh e) (queue q s) = true then .idle else x.refresh
          let w := if x.write = .pending ∧ holds (.write e) (queue q s) = true then .none else x.write
          let done := r = .idle ∧ w ≠ .pending ∧ w ≠ .active
          ∃ t, run = .next t
            ∧ entry e t
              = { x with
                  enable := if done then .disabled else .draining, refresh := r, write := if done then .none else w
                  validity := if done then .none else x.validity, faultMark := if done then false else x.faultMark
                  held := if x.refresh = .held then Vector.replicate 32 0#8 else x.held
                  writeOvertaken := false, refreshAgain := false, writeAgain := false, dueTime := none })

/-! ## Sweeps -/

/-- R35, R36: GROUP_SWEEP and the expiry of a group's due timer, by the group's state. The start of a sweep is stated by
Obligations.SweepStartAsksEveryMember. A due time is reached as log entry 6 says. -/
def Obligations.SweepRequests : Prop :=
  ∀ (g : GroupId) (arg : Byte) (tag : Half) (s : State), arg.toNat = g.val + 1 →
    (Ready s →
        let run := exec (.groupSweep arg tag) s
        (memberCount g s = 0 → run = .next (refused 0x10#8 arg tag .badState s))
          ∧ (memberCount g s ≠ 0 → (group g s).state = .idle →
              run = .next (answered 0x10#8 tag .accepted .none (startSweep g .urgent (issued 0x10#8 arg tag s))))
          ∧ (memberCount g s ≠ 0 → (group g s).state = .sweeping →
              run = .next (accepted 0x10#8 arg tag (modGroup g (fun x => { x with sweepAgain := true }) s))))
      ∧ (s.inReset = false →
          let run := exec (.groupDueExpiry g) s
          let s1 := fun due => modGroup g (fun x =>
            { x with dueTime := if x.period = 0#16 then none else some (due + x.period.setWidth 32) }) s
          (∀ due, (group g s).dueTime = some due → (s.timebase - due).toNat < 2 ^ 31 → (group g s).state = .idle →
              run = .next (startSweep g .routine (s1 due)))
            ∧ (∀ due, (group g s).dueTime = some due → (s.timebase - due).toNat < 2 ^ 31 →
                (group g s).state = .sweeping →
                run = .next (modGroup g (fun x => { x with missed := oneMore x.missed }) (s1 due)))
            ∧ ((group g s).dueTime = none → run = .next s)
            ∧ ∀ due, (group g s).dueTime = some due → 2 ^ 31 ≤ (s.timebase - due).toNat → run = .next s)

/-- R38: the start of a sweep. Every ENABLED member is asked in ascending order and takes its answer, in the class and with
the tag of the sweep; with no member admitted the sweep ends at once, torn, and R44 is applied. -/
def Obligations.SweepStartAsksEveryMember : Prop :=
  ∀ (g : GroupId) (cls : JobClass) (s : State),
    let asked := sweepAsked g cls s
    let ended := tornEnded g asked
    (answeredBy g cls .admitted s ≠ [] → startSweep g cls s = asked)
      ∧ (answeredBy g cls .admitted s = [] → (group g s).sweepAgain = false → startSweep g cls s = ended)
      ∧ (answeredBy g cls .admitted s = [] → (group g s).sweepAgain = true →
          startSweep g cls s = startSweep g .urgent (modGroup g (fun x => { x with sweepAgain := false }) ended))

/-- R42, R43, R44: the end of a sweep whose outstanding count has reached 0, published or torn, and its restart. -/
def Obligations.SweepEndsPublishOrTear : Prop :=
  ∀ (g : GroupId) (s : State),
    let ended := if (group g s).torn = true then tornEnded g s else groupPublished g s
    ((group g s).sweepAgain = false → endSweep g s = ended)
      ∧ ((group g s).sweepAgain = true →
          endSweep g s = startSweep g .urgent (modGroup g (fun x => { x with sweepAgain := false }) ended))

/-! ## Reports taken at entries -/

/-- R15, R51: a start report moves its one field from QUEUED or PENDING to ACTIVE; the controller whose active job it is may
begin, and for a WRITE job takes its copy of the staging bytes in the same event. -/
def Obligations.StartReportsMakeJobsActive : Prop :=
  ∀ (e : EntryId) (r : JobRef) (s s0 : State), s.inReset = false → FirstReport e (.started r) s s0 →
    let q := (entry e s).cfg.seg
    let mine := (ctl q s).active.map (fun a => a.job.ref) = some r
    (r = .refresh e →
        exec (.startReport e) s = .next
          (modEntry e (fun x => { x with refresh := if x.refresh = .queued then .active else x.refresh })
            (if mine then modActive q (fun a => { a with started := true }) s0 else s0)))
      ∧ (r = .write e →
          exec (.startReport e) s = .next
            (modEntry e (fun x => { x with write := if x.write = .pending then .active else x.write })
              (if mine then
                modCtl q (fun c => { c with tx := fill 32 ((entry e s).staging.toList.take (entry e s).cfg.length.toNat) })
                  (modActive q (fun a => { a with started := true }) s0)
              else s0)))

/-- R16 and R58: a refresh completion of an ENABLED entry without a sweep tag, with write-overtaken clear and set, and the one
request that may follow it. -/
def Obligations.RefreshCompletionsPublishOrMark : Prop :=
  ∀ (e : EntryId) (c : Completion) (s s0 : State), s.inReset = false → FirstReport e (.completed c) s s0 →
    c.ref = .refresh e → c.tag = none → (entry e s).enable = .enabled →
    let x := entry e s
    let ended := modEntry e fun x =>
      { x with lastRefresh := c.result, refresh := .idle, refreshAgain := false, writeOvertaken := false }
    let failed := marked e (modEntry e (fun x => { x with validity := toStale x.validity }) s0)
    let s1 :=
      ended (if c.result = .ok then
          if x.writeOvertaken = true then s0 else modEntry e (publishedEntry c.bytes s.timebase) s0
        else failed)
    (x.writeOvertaken = false → x.refreshAgain = false → exec (.refreshCompletion e) s = .next s1)
      ∧ (x.writeOvertaken = false → x.refreshAgain = true →
          exec (.refreshCompletion e) s = .next (requested e .urgent none s1))
      ∧ (x.writeOvertaken = true →
          exec (.refreshCompletion e) s
            = .next (requested e (if x.refreshAgain = true then .urgent else .routine) none s1))

/-- R39, R40: a member's refresh completion, taken at the member and its group as one event; the sweep ends in it when the
outstanding count falls to 0. -/
def Obligations.MemberCompletionsHoldOrTear : Prop :=
  ∀ (e : EntryId) (g : GroupId) (c : Completion) (s s0 : State), s.inReset = false →
    FirstReport e (.completed c) s s0 → InFlushOrder c s → c.ref = .refresh e → c.tag = some g →
    (entry e s).enable = .enabled →
    let n := (group g s).outstanding - 1
    let s1 :=
      if c.result = .ok then
        modGroup g (fun x => { x with outstanding := n })
          (modEntry e (fun x =>
            { x with held := fill 32 (c.bytes.take x.cfg.length.toNat), refresh := .held, lastRefresh := .ok }) s0)
      else
        modGroup g (fun x => { x with torn := true, outstanding := n })
          (marked e (modEntry e (fun x =>
            { x with refresh := .idle, validity := toStale x.validity, lastRefresh := c.result }) s0))
    (n ≠ 0 → exec (.memberRefreshCompletion e) s = .next s1)
      ∧ (n = 0 → exec (.memberRefreshCompletion e) s = .next (endSweep g s1))

/-- R23: any completion taken in DRAINING is discarded; a member withdraws; with no job left the entry reaches DISABLED,
its write state then NONE (R3; log entry 9). Nothing else of the entry changes and no flag is set but GROUP_TORN by the end of a
sweep. -/
def Obligations.DrainingCompletionsAreDiscarded : Prop :=
  ∀ (e : EntryId) (c : Completion) (s s0 : State), s.inReset = false → FirstReport e (.completed c) s s0 →
    InFlushOrder c s → (entry e s).enable = .draining →
    let x := entry e s
    (c.ref = .refresh e →
        let t := drained e (withdrawn c.tag false (modEntry e (fun x => { x with refresh := .idle }) s0))
        exec (.refreshCompletion e) s = .next t
          ∧ (c.tag ≠ none → exec (.memberRefreshCompletion e) s = .next t)
          ∧ (c.tag = none → t.flags = s.flags)
          ∧ let done := x.write ≠ .pending ∧ x.write ≠ .active
            entry e t
              = { x with
                  refresh := .idle, enable := if done then .disabled else .draining, write := if done then .none else x.write
                  validity := if done then .none else x.validity, faultMark := if done then false else x.faultMark })
      ∧ (c.ref = .write e →
          let t := drained e (modEntry e (fun x => { x with write := .none }) s0)
          exec (.writeCompletion e) s = .next t ∧ t.flags = s.flags
            ∧ let done := x.refresh = .idle
              entry e t
                = { x with
                    write := .none, enable := if done then .disabled else .draining
                    validity := if done then .none else x.validity, faultMark := if done then false else x.faultMark })

/-- R55 with Table 3.2, R56 and R59: a write completion of an ENABLED entry. -/
def Obligations.WriteCompletionsRecordTheOutcome : Prop :=
  ∀ (e : EntryId) (c : Completion) (s s0 : State), s.inReset = false → FirstReport e (.completed c) s s0 →
    c.ref = .write e → (entry e s).enable = .enabled →
    let x := entry e s
    let q := x.cfg.seg
    let run := exec (.writeCompletion e) s
    let note := fun (bits : BitVec 13) (t : State) => { t with flags := t.flags ||| bits }
    let s1 :=
      match c.result with
      | .ok =>
        note 0x002#13 (modEntry e (fun x =>
          { publishedEntry c.bytes s.timebase x with write := .done, lastWrite := c.result }) s0)
      | .verifyMismatch =>
        note 0x006#13 (marked e (modEntry e (fun x =>
          { publishedEntry c.bytes s.timebase x with write := .mismatch, lastWrite := c.result }) s0))
      | _ => note 0x002#13 (marked e (modEntry e (fun x => { x with write := .failed, lastWrite := c.result }) s0))
    (x.writeAgain = false → x.refresh = .queued →
        run = .next (modEntry e (fun x => { x with writeOvertaken := false }) s1))
      ∧ (x.writeAgain = false → x.refresh ≠ .queued → run = .next s1)
      ∧ (x.writeAgain = true →
          let s2 := modEntry e (fun x => { x with writeAgain := false }) s1
          (answerOf q .urgent s = .admitted →
              run = .next (modEntry e (fun x => { x with write := .pending }) (joined q (writeJob e) s2)))
            ∧ (answerOf q .urgent s = .full →
                run = .next (marked e (modEntry e (fun x => { x with write := .failed }) s2)))
            ∧ (answerOf q .urgent s = .down →
                run = .next (marked e (modEntry e (fun x =>
                  { x with write := .failed, lastWrite := .segmentDown }) s2))))

/-- R24, R37: a device notice. Matching FRESH entries go STALE; then each matching ungrouped entry has its refresh arranged,
in ascending order; then each group with a matching ENABLED member gets one sweep request, in ascending order. A notice that
matches no ENABLED entry has no effect. -/
def Obligations.DeviceNoticesReachEveryMatch : Prop :=
  ∀ (n : Notice) (rest : List Notice) (s : State), s.inReset = false → s.notices = n :: rest →
    let hit := fun (e : EntryId) =>
      (entry e s).enable == .enabled && (entry e s).cfg.seg == n.segment && (entry e s).cfg.address == n.subject
    let s1 :=
      { s with
        notices := rest
        entries := tabulate 128 fun e =>
          if hit e = true then { entry e s with validity := toStale (entry e s).validity } else entry e s }
    let s2 := (indices 128).foldl (fun t e =>
      if hit e = true ∧ (entry e s).cfg.group = 0#4 then demanded e t else t) s1
    let s3 := (indices 15).foldl (fun t g =>
      if (indices 128).any (fun e => hit e && (entry e s).cfg.groupId == some g) = true then
        match (group g t).state with
        | .idle => startSweep g .urgent t
        | .sweeping => modGroup g (fun x => { x with sweepAgain := true }) t
      else t) s2
    exec .deviceNotice s = .next s3
      ∧ ((∀ e, hit e = false) → exec .deviceNotice s = .next { s with notices := rest })

/-! ## Completions, results and retries at a Segment Controller -/

/-- R107, R118: what a completion carries, that a slot takes it in the same event while an entry's is sent, that the controller
lets go of the job, and where it goes after it; the end of STOPPING is that of R112, or of R116 and R151 in a soft reset. -/
def Obligations.CompletionsCarryTheOutcome : Prop :=
  ∀ (q : SegId) (o : FrameOutcome) (used : BitVec 4) (s : State),
    (∀ a, (ctl q s).active = some a →
        completeJob q o used s = finished q a o used s ∧ completeAttempt q o s = finished q a o (usedBy a) s)
      ∧ ((ctl q s).active = none → completeJob q o used s = s ∧ completeAttempt q o s = s)
      ∧ (foreignNow (ctl q s) →
          afterCompletion q s
            = modCtl q (fun c =>
                { c with busySince := if occupancy (queue q s) = 0 then none else some s.timebase }) s)
      ∧ ((ctl q s).state = .recovering → afterCompletion q s = s)
      ∧ ((ctl q s).state = .idle ∨ (ctl q s).state = .active ∨ (ctl q s).state = .settle ∨ (ctl q s).state = .backoff →
          afterCompletion q s = modCtl q (fun c => { c with state := .idle, own := .quiet }) s)
      ∧ ((ctl q s).state = .stopping → afterCompletion q s = stopped q s)

/-- R66: a flush empties the queue, zeroes its streak, takes each DIRECT job's slot to DONE within the event and sends the
FLUSHED completions of entry jobs in queue order. -/
def Obligations.FlushReportsEveryJob : Prop := ∀ (q : SegId) (s : State), flush q s = flushed q s

/-- R103, R105, R108: an attempt result is recorded, the streak moved as Table 6.4 gives; at the threshold, or on SEGMENT_FAULT,
the segment is quarantined in the same event, and only otherwise the job goes on. In QUARANTINED the streak is kept, nothing is
driven or sensed, the queue is empty and answers DOWN. -/
def Obligations.AttemptResultsMayQuarantine : Prop :=
  ∀ (q : SegId) (o : FrameOutcome) (goOn : State → State) (s : State),
    let n := newStreak o.result (ctl q s).streak
    let s1 := resultTaken q o.result s
    let t := quarantined q o s1
    (n = (ctl q s).cfg.threshold ∨ o.result = .segmentFault → takeResult q o goOn s = t)
      ∧ (n ≠ (ctl q s).cfg.threshold → o.result ≠ .segmentFault → takeResult q o goOn s = goOn s1)
      ∧ (ctl q t).state = .quarantined ∧ (ctl q t).streak = n ∧ (ctl q t).active = none
      ∧ driven q t = (.released, .released) ∧ sensesLines (ctl q t) = false
      ∧ occupancy (queue q t) = 0 ∧ ∀ j, (requestAdmission q j t).2 = .down

/-- R104, R113 and R115: the decision of a retryable result whose backoff begins in its event, by the attempts field. At backoff 0
with no foreign frame in progress the next start is driven in that event, with no line check of its own: the model's reading (log
entry 11). -/
def Obligations.RetriesFollowTheAttemptsField : Prop :=
  ∀ (q : SegId) (o : FrameOutcome) (a : ActiveJob) (s : State), (ctl q s).active = some a →
    let below := a.job.attempts.toNat < (ctl q s).cfg.retryLimit.toNat
    let held := fun p => some { a with job := { a.job with attempts := a.job.attempts + 1#3 }, last := some o, phase := p }
    ((ctl q s).state = .stopping ∨ ¬below → retryOrComplete q o s = completes q o s)
      ∧ ((ctl q s).state ≠ .stopping → below → a.abortPending = true →
          retryOrComplete q o s = afterCompletion q (completeJob q (noFrame .cancelled) (usedBy a) s))
      ∧ ((ctl q s).state ≠ .stopping → below → a.abortPending = false →
          ((ctl q s).cfg.backoff ≠ 0#8 → foreignNow (ctl q s) →
              retryOrComplete q o s = modCtl q (fun c => { c with active := held (.backoff s.timebase) }) s)
            ∧ ((ctl q s).cfg.backoff ≠ 0#8 → ¬foreignNow (ctl q s) →
                retryOrComplete q o s
                  = modCtl q (fun c => { c with state := .backoff, active := held (.backoff s.timebase) }) s)
            ∧ ((ctl q s).cfg.backoff = 0#8 → foreignNow (ctl q s) →
                retryOrComplete q o s
                  = modCtl q (fun c => { c with active := held .due, busySince := some s.timebase }) s)
            ∧ ((ctl q s).cfg.backoff = 0#8 → ¬foreignNow (ctl q s) → a.started = true →
                retryOrComplete q o s = started q (modCtl q (fun c => { c with active := held .running }) s)))

/-- R53, R104: the settle delay and the backoff end once the timebase has advanced by them, and not before. The job's next
attempt is then due; in FOREIGN and RECEIVING a busy wait begins (R98). It begins with ATTEMPT_BEGIN (log entry 11). -/
def Obligations.DelaysEndOnTheTimebase : Prop :=
  ∀ (q : SegId) (a : ActiveJob) (since : Word) (s : State), s.inReset = false → (ctl q s).active = some a →
    let wait := if foreignNow (ctl q s) then some s.timebase else (ctl q s).busySince
    (a.phase = .backoff since →
        (passed since (ctl q s).cfg.backoff.toNat s →
            exec (.backoffEnd q) s
              = .next (modCtl q (fun c => { c with active := some { a with phase := .due }, busySince := wait }) s))
          ∧ (¬passed since (ctl q s).cfg.backoff.toNat s → exec (.backoffEnd q) s = .next s))
      ∧ (∀ e, a.phase = .settle since → a.job.ref = .write e →
          (passed since (entry e s).cfg.settleDelay.toNat s →
              exec (.settleEnd q) s
                = .next (modCtl q (fun c =>
                    { c with
                      active := some { a with
                        phase := .due, frame := .verifyRead, job := { a.job with attempts := 0#3 } }
                      busySince := wait }) s))
            ∧ (¬passed since (entry e s).cfg.settleDelay.toNat s → exec (.settleEnd q) s = .next s))

/-! ## Selection and the start of attempts -/

/-- R68, R69, R123: a selection by an IDLE controller, row by row of Table 4.4, and what the controller and the owner take in
the same event; a controller in another state, or with a job, makes none here. -/
def Obligations.SelectionFollowsTheArbiter : Prop :=
  ∀ (q : SegId) (s : State), s.inReset = false →
    let u := (queue q s).urgent
    let r := (queue q s).routine
    let n := (queue q s).streak
    let held := fun (j : Job) (f : FrameInUse) (b : Bool) =>
      some ({ job := { j with attempts := 0#3 }, frame := f, started := b, phase := .due, last := none
              abortPending := false } : ActiveJob)
    let taken := fun (j : Job) (rest : SegQueue) =>
      let s1 := setQueue q rest s
      match j.ref with
      | .refresh e => send (.started (.refresh e)) (modCtl q (fun c => { c with active := held j .refreshRead false }) s1)
      | .write e => send (.started (.write e)) (modCtl q (fun c => { c with active := held j .writeFrame false }) s1)
      | .direct k =>
        let sent := if (slot k s).kind = 0#3 ∨ (slot k s).kind = 2#3 then 0 else (slot k s).writeCount.toNat
        modSlot k (fun x => { x with state := .active })
          (modCtl q (fun c =>
            { c with active := held j .slotFrame true, tx := fill 32 ((slot k s).data.toList.take sent) }) s1)
    (u = [] → r = [] → select q s = s)
      ∧ (∀ j js, u = j :: js → r = [] → select q s = taken j { urgent := js, routine := [], streak := 0 })
      ∧ (∀ j js, u = j :: js → r ≠ [] → n < 4 → select q s = taken j { urgent := js, routine := r, streak := n + 1 })
      ∧ (∀ j js, u ≠ [] → r = j :: js → 4 ≤ n → select q s = taken j { urgent := u, routine := js, streak := 0 })
      ∧ (∀ j js, u = [] → r = j :: js → select q s = taken j { urgent := [], routine := js, streak := 0 })
      ∧ ((ctl q s).state = .idle → (ctl q s).active = none → exec (.selection q) s = .next (select q s))
      ∧ ((ctl q s).state ≠ .idle ∨ (ctl q s).active ≠ none → exec (.selection q) s = .next s)

/-- R97, R96: the line check when an attempt whose start report has been taken is due with the bus FREE, and again when the
clock line rises within the hold limit. A recovery entered here is the one R109 gives (Obligations.RecoveryChecksAndStops). -/
def Obligations.AttemptsBeginWithTheLineCheck : Prop :=
  ∀ (q : SegId) (lines : Lines) (sense : RecoverySense) (a : ActiveJob) (s : State), s.inReset = false →
    (ctl q s).active = some a →
    let quiet := modCtl q (fun c => { c with own := .quiet }) s
    let stuck := takeResult q (noFrame .lineStuck)
      (fun t => beginRecovery q sense
        (modCtl q (fun c =>
          { c with active := c.active.map fun a => { a with phase := .recovering, last := some (noFrame .lineStuck) } }) t))
      quiet
    let ready := ((ctl q s).state = .idle ∨ (ctl q s).state = .backoff ∨ (ctl q s).state = .settle)
      ∧ (ctl q s).bus = .free ∧ (ctl q s).own = .quiet ∧ a.started = true ∧ a.phase = .due
    (ready → lines.sda = true → lines.scl = true → exec (.attemptBegin q lines sense) s = .next (started q s))
      ∧ (ready → lines.sda = true → lines.scl = false →
          exec (.attemptBegin q lines sense) s
            = .next (modCtl q (fun c => { c with state := .active, own := .startWait s.timebase }) s))
      ∧ (ready → lines.sda = false → exec (.attemptBegin q lines sense) s = .next stuck)
      ∧ (¬ready → exec (.attemptBegin q lines sense) s = .next s)
      ∧ ∀ since, (ctl q s).own = .startWait since → (ctl q s).state = .active →
          let run := exec (.clockLineSensedHigh q lines.sda sense) s
          (¬passed since (ctl q s).cfg.holdLimit.toNat s → lines.sda = true → run = .next (started q s))
            ∧ (¬passed since (ctl q s).cfg.holdLimit.toNat s → lines.sda = false → run = .next stuck)
            ∧ (passed since (ctl q s).cfg.holdLimit.toNat s → run = .next s)

/-! ## Frames of the part -/

/-- R87, R88, R52, R54, R80: the elements of every frame the part sends, in wire order, by the kind of job, the offset width and
the check code. -/
def Obligations.FramesOfEveryJob : Prop :=
  ∀ (a : ActiveJob) (tx : Vector Byte 32) (s : State),
    (∀ e, (a.job.ref = .refresh e ∧ a.frame = .refreshRead) ∨ (a.job.ref = .write e ∧ a.frame = .verifyRead) →
        let c := (entry e s).cfg
        let offsets := if c.offsetWidth = 1#2 then [Element.offset (c.registerOffset.extractLsb' 0 8)]
          else [.offset (c.registerOffset.extractLsb' 8 8), .offset (c.registerOffset.extractLsb' 0 8)]
        let ending := List.replicate c.length.toNat Element.readData ++ if c.checkCode = true then [.readCheck] else []
        jobFrame a tx s
          = if c.offsetWidth = 0#2 then .address (rByte c.address) false :: ending
            else .address (wByte c.address) false :: offsets ++ .address (rByte c.address) true :: ending)
      ∧ (∀ e, a.job.ref = .write e → a.frame = .writeFrame →
          let c := (entry e s).cfg
          let offsets := if c.offsetWidth = 0#2 then []
            else if c.offsetWidth = 1#2 then [Element.offset (c.registerOffset.extractLsb' 0 8)]
            else [.offset (c.registerOffset.extractLsb' 8 8), .offset (c.registerOffset.extractLsb' 0 8)]
          jobFrame a tx s
            = .address (wByte c.address) false :: offsets ++ (tx.toList.take c.length.toNat).map .sendData
                ++ if c.checkCode = true then [.sendCheck] else [])
      ∧ ∀ k, a.job.ref = .direct k → a.frame = .slotFrame →
          let d := slot k s
          let sent := (tx.toList.take d.writeCount.toNat).map Element.sendData
          let read := List.replicate d.readCount.toNat Element.readData ++ if d.checkOption = true then [.readCheck] else []
          (d.kind = 0#3 → jobFrame a tx s = [.address (wByte d.address) false])
            ∧ (d.kind = 1#3 →
                jobFrame a tx s
                  = .address (wByte d.address) false :: sent ++ if d.checkOption = true then [.sendCheck] else [])
            ∧ (d.kind = 2#3 → jobFrame a tx s = .address (rByte d.address) false :: read)
            ∧ (d.kind = 3#3 →
                jobFrame a tx s
                  = .address (wByte d.address) false :: sent ++ .address (rByte d.address) true :: read)

/-- R82, R83, R84, R86: the outcome of a frame, whose elements sent all stand before those read. A byte refused ends it with the
result of Table 5.1 and the count of data bytes acknowledged; otherwise the bytes read are delivered, and the check byte, if
any, is compared with the running value over every byte before it. Each byte read has been given ACK, the last of the frame a
refusal. Then the frame that has not come to its end, before a byte sent and before a byte read; and the data line in the bits
of its byte in progress (R78): a 1 is the line released, and so are the bits the target sends and a refusal. -/
def Obligations.FrameOutcomesAndCheckCode : Prop :=
  (∀ (sent : List Element) (data : List Byte) (check : Option Byte), sent.all isSent = true →
      let els := sent ++ List.replicate data.length .readData ++ if check = none then [] else [.readCheck]
      let crc := (sent.filterMap sentByte ++ data).foldl crcByte 0#8
      runFrame els { acks := List.replicate sent.length true, reads := data ++ check.toList }
        = { progress := .whole (match check with | none => true | some b => b == crc)
            acked := (sent.filter isSentData).length, received := data, passed := els.length, crc := crc
            given := (List.range (data ++ check.toList).length).map fun i =>
              decide (i + 1 < (data ++ check.toList).length) })
    ∧ (∀ (before after : List Element) (e : Element) (as : List Bool) (bs : List Byte), before.all isSent = true →
        isSent e = true →
        runFrame (before ++ e :: after) { acks := List.replicate before.length true ++ false :: as, reads := bs }
          = { progress := .refused (refusedAs e), acked := (before.filter isSentData).length, received := []
              given := [], passed := before.length + 1
              crc := (before ++ [e]).filterMap sentByte |>.foldl crcByte 0#8 })
    ∧ (∀ (before after : List Element) (e : Element), before.all isSent = true → isSent e = true →
        runFrame (before ++ e :: after) { acks := List.replicate before.length true, reads := [] }
          = { progress := .cut e, acked := (before.filter isSentData).length, received := [], given := []
              passed := before.length, crc := (before.filterMap sentByte).foldl crcByte 0#8 })
    ∧ (∀ (sent after : List Element) (data : List Byte) (e : Element), sent.all isSent = true → isSent e = false →
        runFrame (sent ++ List.replicate data.length .readData ++ e :: after)
            { acks := List.replicate sent.length true, reads := data }
          = { progress := .cut e, acked := (sent.filter isSentData).length, received := data
              given := List.replicate data.length true, passed := sent.length + data.length
              crc := (sent.filterMap sentByte ++ data).foldl crcByte 0#8 })
    ∧ (∀ (q : SegId) (since : Word) (e : Element) (s : State), (ctl q s).own = .frame since →
        (ctl q s).state = .active ∨ (ctl q s).state = .stopping →
        let r := runOn q (partFrame q s) noTraffic s
        r.progress = .cut e →
          (∀ b, outByte e r.crc = some b → (ctl q s).bitCount < 8 →
              ((ctl q s).bitCount ≠ 0 ∨ ∀ x y, e ≠ .address x y) →
              driven q s = (.asInitiator, if wireBit b (ctl q s).bitCount = true then .released else .low))
            ∧ ((outByte e r.crc).isSome = true → (ctl q s).bitCount = 8 → driven q s = (.asInitiator, .released))
            ∧ (outByte e r.crc = none →
                driven q s = (.asInitiator,
                  if (ctl q s).bitCount = 8 ∧ r.passed + 1 < (upToEnd q (partFrame q s) s).length then .low
                  else .released)))
    ∧ ∀ v b : Byte, crcByte v b = crcStep (crcStep (crcStep (crcStep (crcStep (crcStep (crcStep (crcStep (v ^^^ b))))))))

/-- R84, R102, R52 to R54 and R85: the end of the part's frame and what follows its result. A write frame that ended OK with
verify on goes to the settle delay, or with delay 0 to the verify read; in STOPPING it completes FLUSHED (R113). A verify read
that ended OK is compared with the bytes sent. With an early end requested, only a byte refused before it, or the frame's own
stop where that comes at the boundary of the early end, is an end of its own. The model's readings: that stop has come before
the request, which finds no frame (log entry 21); at a settle delay of 0 the verify read's start is driven in this event, with
no line check of its own (log entry 11); VERIFY_MISMATCH is the segment's last result (log entry 15); traffic that does not
reach the frame's end changes nothing (log entry 1). -/
def Obligations.FrameEndsAreClassified : Prop :=
  ∀ (q : SegId) (wire : Traffic) (a : ActiveJob) (since : Word) (s : State), s.inReset = false →
    (ctl q s).own = .frame since → (ctl q s).active = some a → ¬HeldTooLong q s →
    let r := runOf q a wire s
    let c := closed q r s
    let run := exec (.frameEnd q wire) s
    let out := outcomeOf r
    let ownEnd := upToEnd q (jobFrame a (ctl q s).tx s) s = jobFrame a (ctl q s).tx s
    let ok := r.progress = .whole true ∧ ownEnd
    let verified := fun e => a.job.ref = .write e ∧ a.frame = .writeFrame ∧ (entry e s).cfg.verify = true
    (∀ x, r.progress = .refused x → x = .noDevice ∨ x = .dataRefused ∨ x = .readRefused →
        run = .next (takeResult q (out x) (completes q (out x)) c))
      ∧ (r.progress = .whole false → ownEnd →
          run = .next (takeResult q (out .checkMismatch) (retryOrComplete q (out .checkMismatch)) c))
      ∧ (ok → (∀ e, ¬verified e) → (∀ e, a.job.ref = .write e → a.frame ≠ .verifyRead) →
          run = .next (takeResult q (out .ok) (completes q (out .ok)) c))
      ∧ (∀ e, ok → a.job.ref = .write e → a.frame = .verifyRead →
          let result := if r.received = (ctl q s).tx.toList.take (entry e s).cfg.length.toNat then Result.ok
            else .verifyMismatch
          run = .next (takeResult q (out result) (completes q (out result)) c))
      ∧ (∀ e, ok → verified e → (ctl q s).state = .stopping →
          run = .next (takeResult q (out .ok) (completes q (out .flushed)) c))
      ∧ (∀ e, ok → verified e → (ctl q s).state ≠ .stopping → (entry e s).cfg.settleDelay ≠ 0#8 →
          run = .next (takeResult q (out .ok)
            (modCtl q (fun c =>
              { c with state := .settle, active := some { a with phase := .settle s.timebase, last := some (out .ok) } })) c))
      ∧ (∀ e, ok → verified e → (ctl q s).state ≠ .stopping → (entry e s).cfg.settleDelay = 0#8 → a.started = true →
          run = .next (takeResult q (out .ok)
            (fun t => started q (modCtl q (fun c =>
              { c with
                active := some { a with
                  frame := .verifyRead, last := some (out .ok), phase := .due
                  job := { a.job with attempts := 0#3 } } }) t)) c))
      ∧ ((∃ x, r.progress = .cut x) ∨ ((∃ b, r.progress = .whole b) ∧ ¬ownEnd) → run = .next s)

/-- R85, R115, R116: a frame that an early-end request ends at the next byte boundary is ABORTED with the counts as they stand
there, the last boundary included, unless a byte was refused before (log entry 21). Before that boundary, and without a request,
nothing ends early; past it no byte of the frame goes. The end of the frame whose job a soft reset has dropped, of itself, early
or by a loss, ends the reset's STOPPING. A clock-hold at its limit is left to Obligations.HoldTimeoutsMakeAStopAttempt. -/
def Obligations.EarlyEndsAreAborted : Prop :=
  ∀ (q : SegId) (wire : Traffic) (since : Word) (s : State), s.inReset = false → (ctl q s).own = .frame since →
    ¬HeldTooLong q s →
    let run := exec (.frameEndedEarly q wire) s
    let r := runOn q (partFrame q s) wire s
    let within := ∃ x, r.progress = .cut x
    (∀ a n, (ctl q s).active = some a → (ctl q s).earlyEnd = some n → ¬within →
        let aborted := outcomeOf r .aborted
        ((∃ b, r.progress = .whole b) → run = .next (takeResult q aborted (completes q aborted) (closed q r s)))
          ∧ (∀ x, r.progress = .refused x → x = .noDevice ∨ x = .dataRefused ∨ x = .readRefused →
              run = .next (takeResult q (outcomeOf r x) (completes q (outcomeOf r x)) (closed q r s))))
      ∧ ((ctl q s).earlyEnd = none ∨ within → run = .next s)
      ∧ (∀ n, (ctl q s).earlyEnd = some n → r.passed ≤ n)
      ∧ ((ctl q s).active = none →
          let ended := (∃ x, r.progress = .refused x) ∨ (¬within ∧ upToEnd q (ctl q s).dropped s = (ctl q s).dropped)
          (∀ n, (ctl q s).earlyEnd = some n → ¬within → run = .next (stopped q s))
            ∧ (ended → exec (.frameEnd q wire) s = .next (stopped q s))
            ∧ (¬ended → exec (.frameEnd q wire) s = .next s)
            ∧ ∀ p,
              (Compares q (ctl q s).dropped wire p s → exec (.arbitrationLoss q wire p) s = .next (stopped q s))
                ∧ (¬Compares q (ctl q s).dropped wire p s → exec (.arbitrationLoss q wire p) s = .next s))

/-- R101, R81, R113: arbitration lost in a frame of a job, at a point where the part has released the data line and compares; at
any other point none is lost. The streak is not changed; the controller is FOREIGN, or its STOPPING ends; the bits sent before
the loss stand in the byte in progress, and a loss within an address byte leaves that byte to be decided; a retry waits for the
end of the foreign frame, and a busy wait begins in the loss event. That a loss at a refusal or at a release leaves no byte in
progress, with a bit count of 0, is the model's choice, since R81 names no byte there (log entry 31). In FOREIGN that byte, of
whatever kind, is then completed from the bits a tick finds (log entry 13). -/
def Obligations.ArbitrationLossBecomesForeign : Prop :=
  (∀ (q : SegId) (wire : Traffic) (p : LossPoint) (a : ActiveJob) (since : Word) (s : State), s.inReset = false →
    (ctl q s).own = .frame since → (ctl q s).active = some a → (ctl q s).streak ≠ (ctl q s).cfg.threshold →
    ¬HeldTooLong q s →
    let r := runOf q a wire s
    let o := outcomeOf r .lostArbitration
    let run := exec (.arbitrationLoss q wire p) s
    let lost := Compares q (jobFrame a (ctl q s).tx s) wire p s
    let below := a.job.attempts.toNat < (ctl q s).cfg.retryLimit.toNat
    let recorded := modCtl q (fun c => { c with lastResult := .lostArbitration }) s
    let s1 := modCtl q (fun c =>
      { c with
        state := .foreign, bus := .busy, own := .quiet, earlyEnd := none, traffic := noTraffic, holdSince := none
        rx := fill 32 r.received, acksGiven := r.given, checkValue := r.crc, addressExpected := inAddress r p
        byteInProgress := (keptBits r p).1, bitCount := (keptBits r p).2 }) recorded
    (¬lost → run = .next s)
      ∧ (lost → (ctl q s).state = .stopping → run = .next (completes q o recorded))
      ∧ (lost → (ctl q s).state ≠ .stopping → ¬below → run = .next (completes q o s1))
      ∧ (lost → (ctl q s).state ≠ .stopping → below → a.abortPending = true →
          run = .next (afterCompletion q (completeJob q (noFrame .cancelled) (usedBy a) s1)))
      ∧ (lost → (ctl q s).state ≠ .stopping → below → a.abortPending = false →
          run = .next (modCtl q (fun c =>
            { c with
              busySince := some s.timebase
              active := some { a with
                job := { a.job with attempts := a.job.attempts + 1#3 }, last := some o, phase := .backoffPending } }) s1)))
    ∧ ∀ (q : SegId) (w : LineReport) (s : State), s.inReset = false → (ctl q s).state = .foreign → (ctl q s).own = .quiet →
      (ctl q s).bitCount ≠ 0 → w.seg = q → w.bits.length ≤ 8 →
      ∃ d, exec (.timebaseTick [w]) s
          = .next
            { modCtl q (fun c => { c with byteInProgress := d, bitCount := max c.bitCount w.bits.length }) s with
              timebase := s.timebase + 1#32 }
        ∧ ∀ i, i < 8 → wireBit d i
            = if i < (ctl q s).bitCount then wireBit (ctl q s).byteInProgress i else w.bits.getD i false

/-- R106, R79, R92, R113, R116: what a tick finds of the part's frame, also of one whose job a soft reset has dropped, a
clock-hold that has reached the hold limit, in a frame or before a start, and the stop attempt with its two ends: it keeps the
data line low, and releases it once a tick finds the clock line high. The model's readings: a clock line found held at a tick
was released at the timebase value before it (log entry 13); SEGMENT_OFFLINE's STOPPING makes the stop attempt too (log entry
20), which after a hold before a start leaves the bus FREE (log entry 29); at the very tick of the limit the hold ends the frame
and the stop attempt has failed (log entry 27). -/
def Obligations.HoldTimeoutsMakeAStopAttempt : Prop :=
  ∀ (q : SegId) (wire : Traffic) (sense : RecoverySense) (since : Word) (s : State), s.inReset = false →
    let limit := (ctl q s).cfg.holdLimit.toNat
    let attempt := fun (o : FrameOutcome) => modCtl q fun c =>
      { c with
        own := .stopAttempt s.timebase, stopReleased := false, earlyEnd := none, traffic := noTraffic, holdSince := none
        byteInProgress := 0#8, bitCount := 0
        active := c.active.map fun a => { a with phase := .running, last := some o } }
    (∀ w, (ctl q s).own = .frame since → ¬HeldTooLong q s → w.seg = q → w.bits.length ≤ 8 →
        let r := runOn q (partFrame q s) w.traffic s
        ∃ b n,
          exec (.timebaseTick [w]) s
              = .next
                { modCtl q (fun c =>
                    { c with
                      traffic := soFar q w.traffic s, holdSince := if w.clockHeld = true then some s.timebase else none
                      rx := if c.active = none then c.rx else fill 32 r.received
                      acksGiven := r.given, checkValue := r.crc, byteInProgress := b, bitCount := n }) s with
                  timebase := s.timebase + 1#32 }
            ∧ (∀ e x, r.progress = .cut e → outByte e r.crc = some x →
                n = w.bits.length ∧ b = leading w.bits.length x)
            ∧ (∀ e, r.progress = .cut e → outByte e r.crc = none →
                n = w.bits.length ∧ ∀ i, i < 8 → wireBit b i = w.bits.getD i false)
            ∧ ((∀ e, r.progress ≠ .cut e) → n = 0 ∧ b = 0#8))
      ∧ (∀ a, (ctl q s).own = .frame since → (ctl q s).active = some a → HeldTooLong q s →
          let o := outcomeOf (runOf q a noTraffic s) .holdTimeout
          exec (.holdTimeout q noTraffic) s = .next (takeResult q o (attempt o) s))
      ∧ ((ctl q s).own = .frame since → (ctl q s).active = none → HeldTooLong q s →
          exec (.holdTimeout q noTraffic) s = .next (stopped q s))
      ∧ ((ctl q s).own = .frame since → ¬HeldTooLong q s ∨ wire ≠ noTraffic → exec (.holdTimeout q wire) s = .next s)
      ∧ ((ctl q s).own = .frame since → HeldTooLong q s →
          exec (.frameEnd q wire) s = .next s ∧ exec (.frameEndedEarly q wire) s = .next s
            ∧ ∀ p, exec (.arbitrationLoss q wire p) s = .next s)
      ∧ ((ctl q s).own = .startWait since → passed since limit s →
          exec (.holdTimeout q wire) s
            = .next (takeResult q (noFrame .holdTimeout) (attempt (noFrame .holdTimeout)) s))
      ∧ ((ctl q s).own = .startWait since → ¬passed since limit s → exec (.holdTimeout q wire) s = .next s)
      ∧ (∀ w, (ctl q s).own = .stopAttempt since → w.seg = q →
          exec (.timebaseTick [w]) s
            = .next
              { modCtl q (fun c => { c with stopReleased := c.stopReleased || !w.clockHeld }) s with
                timebase := s.timebase + 1#32 })
      ∧ ((ctl q s).own = .stopAttempt since → (ctl q s).state = .active ∨ (ctl q s).state = .stopping →
          driven q s = (.released, if (ctl q s).stopReleased = true then .released else .low))
      ∧ (∀ a o, (ctl q s).own = .stopAttempt since → (ctl q s).active = some a → a.last = some o →
          let s1 := finished q a o (usedBy a) s
          (¬passed since limit s →
              exec (.stopAttemptEnd q) s
                = .next (afterCompletion q (modCtl q (fun c => { c with own := .quiet, bus := .free }) s1)))
            ∧ (passed since limit s → (ctl q s).state ≠ .stopping →
                exec (.stopAttemptTimeout q sense) s = .next (beginRecovery q sense s1))
            ∧ (passed since limit s → (ctl q s).state = .stopping →
                exec (.stopAttemptTimeout q sense) s = .next (stopped q s1)))
      ∧ ((ctl q s).own = .stopAttempt since →
          (passed since limit s → exec (.stopAttemptEnd q) s = .next s)
            ∧ (¬passed since limit s → exec (.stopAttemptTimeout q sense) s = .next s))
      ∧ ((ctl q s).own = .stopAttempt since → (ctl q s).active = none → (ctl q s).state = .stopping →
          (¬passed since limit s → exec (.stopAttemptEnd q) s = .next (stopped q s))
            ∧ (passed since limit s → exec (.stopAttemptTimeout q sense) s = .next (stopped q s)))

/-! ## A busy bus and foreign frames -/

/-- R98: the expiry of a busy wait in FOREIGN or RECEIVING, with a held job, and without one, where a selection is made first;
before the limit, and without a wait, nothing expires. -/
def Obligations.BusyLimitEndsTheAttempt : Prop :=
  ∀ (q : SegId) (since : Word) (s : State), s.inReset = false →
    let s1 := modCtl q (fun c => { c with busySince := none }) s
    let busy := takeResult q (noFrame .busBusy) (retryOrComplete q (noFrame .busBusy))
    let run := exec (.busyLimitExpiry q) s
    let reachedLimit := (ctl q s).busySince = some since ∧ foreignNow (ctl q s) ∧ passed since (ctl q s).cfg.busyLimit.toNat s
    (reachedLimit → (ctl q s).active ≠ none → run = .next (busy s1))
      ∧ (reachedLimit → (ctl q s).active = none → occupancy (queue q s) ≠ 0 → run = .next (busy (select q s1)))
      ∧ (reachedLimit → (ctl q s).active = none → occupancy (queue q s) = 0 → run = .next s1)
      ∧ ((ctl q s).busySince = none → run = .next s)
      ∧ ((ctl q s).busySince = some since → ¬passed since (ctl q s).cfg.busyLimit.toNat s → run = .next s)

/-- R99, R98, R100: a foreign start in every state that observes the lines, and the stop that ends a foreign frame, by what the
controller holds; in RECEIVING the two end the reception with the bytes received so far. The model's readings: an attempt due at
the stop, or at a backoff of 0 that ends in it, has its start driven in the same event with no line check of its own (log entry
11), or waits in IDLE for its start report; a stop in a state that observes no foreign frame does not take place (log entry 1). -/
def Obligations.ForeignFramesHoldTheBus : Prop :=
  ∀ (q : SegId) (s : State), s.inReset = false →
    let c := ctl q s
    let observed := fun (wait : Option Word) => modCtl q (fun c =>
      { c with
        state := .foreign, bus := .busy, own := .quiet, earlyEnd := none, addressExpected := true, byteInProgress := 0#8
        bitCount := 0, busySince := wait }) s
    let start := exec (.foreignStart q) s
    let stop := exec (.foreignStop q) s
    let ended := fun (st : CtlState) => modCtl q (fun c =>
      { c with
        state := st, bus := .free, busySince := none, addressExpected := false, byteInProgress := 0#8, bitCount := 0 }) s
    let free := c.state = .idle ∨ c.state = .settle ∨ c.state = .backoff ∨ c.state = .active ∧ ∃ t, c.own = .startWait t
    (free → c.active = none → occupancy (queue q s) = 0 → start = .next (observed c.busySince))
      ∧ (free → c.active = none → occupancy (queue q s) ≠ 0 → start = .next (observed (some s.timebase)))
      ∧ (∀ a, free → c.active = some a → a.phase = .due → start = .next (observed (some s.timebase)))
      ∧ (∀ a t, free → c.active = some a → a.phase = .backoff t ∨ a.phase = .settle t →
          start = .next (observed c.busySince))
      ∧ (c.state = .foreign →
          start = .next (modCtl q (fun c =>
            { c with addressExpected := true, byteInProgress := 0#8, bitCount := 0 }) s))
      ∧ (c.state = .foreign → c.active = none → stop = .next (ended .idle))
      ∧ (∀ a, c.state = .foreign → c.active = some a → a.phase = .due → a.started = true →
          stop = .next (started q (ended .idle)))
      ∧ (∀ a, c.state = .foreign → c.active = some a → a.phase = .due → a.started = false → stop = .next (ended .idle))
      ∧ (∀ a t, c.state = .foreign → c.active = some a → a.phase = .backoff t → stop = .next (ended .backoff))
      ∧ (∀ a t, c.state = .foreign → c.active = some a → a.phase = .settle t → stop = .next (ended .settle))
      ∧ (∀ a, c.state = .foreign → c.active = some a → a.phase = .backoffPending → c.cfg.backoff ≠ 0#8 →
          stop = .next (modCtl q (fun c => { c with active := some { a with phase := .backoff s.timebase } })
            (ended .backoff)))
      ∧ (∀ a, c.state = .foreign → c.active = some a → a.phase = .backoffPending → c.cfg.backoff = 0#8 →
          (a.started = true → stop = .next (started q (ended .idle)))
            ∧ (a.started = false →
                stop = .next (modCtl q (fun c => { c with active := some { a with phase := .due } }) (ended .idle))))
      ∧ (c.state = .receiving →
          stop = exec (.receptionEnd q [] .stop) s ∧ start = exec (.receptionEnd q [] .repeatedStart) s)
      ∧ (c.state ≠ .foreign → c.state ≠ .receiving → stop = .next s)

/-! ## The Listen Unit -/

/-- R134, R135, R136, R100, R81: the decision of a foreign address byte by the lowest-indexed matching entry. Its first bits are
those that stand already: those before an arbitration loss, and those a tick has found (log entry 13). Only direction W is
admitted; CAPTURE and CAPTURE_REFRESH claim a ring place, and a claim that finds none is counted as lost. -/
def Obligations.AddressBytesAreDecided : Prop :=
  ∀ (q : SegId) (sent b : Byte) (s : State), s.inReset = false → (ctl q s).state = .foreign →
    (ctl q s).addressExpected = true →
    (∀ i, i < 8 → wireBit b i = if i < (ctl q s).bitCount then wireBit (ctl q s).byteInProgress i else wireBit sent i) →
    let a := b.extractLsb' 1 7
    let run := exec (.addressByteDecision q sent) s
    let s1 := modCtl q (fun c => { c with addressExpected := false, byteInProgress := b, bitCount := 8 }) s
    let opened := fun (i : ListenId) (act : ListenAction) (place : Bool) =>
      modCtl q (fun c =>
        { c with state := .receiving, rx := Vector.replicate 32 0#8, rxCount := 0, overran := false, acksGiven := [] })
        (setReception q (some { listenIndex := i, address := a, action := act, reserved := place }) s1)
    let places := s.ring.length + reservedCount s
    ((∀ i, ¬matchesListen q a (listenEntry i s)) → run = .next s1)
      ∧ (b.getLsbD 0 = true → run = .next s1)
      ∧ (∀ w, w.seg = q → w.bits.length ≤ 8 → (∀ t, (ctl q s).own ≠ .frame t ∧ (ctl q s).own ≠ .stopAttempt t) →
          ∃ d, exec (.timebaseTick [w]) s
              = .next
                { modCtl q (fun c => { c with byteInProgress := d, bitCount := max c.bitCount w.bits.length }) s with
                  timebase := s.timebase + 1#32 }
            ∧ ∀ i, i < 8 → wireBit d i
                = if i < (ctl q s).bitCount then wireBit (ctl q s).byteInProgress i else w.bits.getD i false)
      ∧ ∀ i, UsedEntry q a i s → b.getLsbD 0 = false →
          ((listenEntry i s).action = 2#3 → run = .next (opened i .refresh false))
            ∧ ((listenEntry i s).action = 3#3 → run = .next (opened i .sink false))
            ∧ ((listenEntry i s).action = 0#3 → places < 32 → run = .next (opened i .capture true))
            ∧ ((listenEntry i s).action = 1#3 → places < 32 → run = .next (opened i .captureRefresh true))
            ∧ ((listenEntry i s).action = 0#3 ∨ (listenEntry i s).action = 1#3 → 32 ≤ places →
                run = .next (noted 0x080#13
                  { s1 with lostCount := if s.lostCount = 65535#16 then s.lostCount else s.lostCount + 1#16 }))

/-- R91, R137, R138, R140: the data bytes of a reception, as a tick finds them and at its end, with the acknowledge given to
each; the data line is driven low in those acknowledge bits and in that of the address byte, and nowhere else. Then the end by a
stop and by a repeated start: a capturing action completes a record of at most 32 bytes at the tail of the ring; a refreshing
one with a data byte then sends a notice. Bytes reach the part with a tick or with the end (log entry 13). -/
def Obligations.ReceptionsEndInRecordsAndNotices : Prop :=
  ∀ (q : SegId) (bytes : List Byte) (r : Reception) (s : State), s.inReset = false → (ctl q s).state = .receiving →
    reception q s = some r →
    let c := received bytes (ctl q s)
    let all := (ctl q s).rx.toList.take (ctl q s).rxCount ++ bytes
    let captures := r.action = .capture ∨ r.action = .captureRefresh
    let notifies := (r.action = .refresh ∨ r.action = .captureRefresh) ∧ all ≠ []
    let record : CaptureRecord :=
      { sequence := s.nextSequence, segment := q, listenIndex := r.listenIndex, address := r.address
        length := BitVec.ofNat 6 c.rxCount, overran := c.overran, action := r.action
        arrivalTime := s.timebase, data := c.rx }
    let taken :=
      { s with
        receptions := putAt s.receptions q none
        ring := if captures then s.ring ++ [record] else s.ring
        nextSequence := if captures then s.nextSequence + 1#16 else s.nextSequence
        flags := if captures then s.flags ||| 0x040#13 else s.flags
        notices :=
          if notifies then s.notices ++ [{ segment := q, subject := (all.headD 0#8).extractLsb' 0 7 }] else s.notices
        ctls := putAt s.ctls q c }
    (∀ w, w.seg = q → w.traffic.reads = bytes → w.bits.length ≤ 8 → (∀ t, (ctl q s).own ≠ .frame t ∧ (ctl q s).own ≠ .stopAttempt t) →
        ∃ d, exec (.timebaseTick [w]) s
            = .next
              { s with
                ctls := putAt s.ctls q { c with byteInProgress := d, bitCount := w.bits.length }
                timebase := s.timebase + 1#32 }
          ∧ ∀ i, i < 8 → wireBit d i = w.bits.getD i false)
      ∧ driven q s
          = (.released, if (ctl q s).bitCount = 8 ∧ (ctl q s).rxCount < 32 then .low else .released)
      ∧ exec (.receptionEnd q bytes .repeatedStart) s
          = .next (modCtl q (fun c =>
              { c with state := .foreign, bus := .busy, addressExpected := true, byteInProgress := 0#8, bitCount := 0 }) taken)
      ∧ exec (.receptionEnd q bytes .stop) s
        = exec (.foreignStop q) (modCtl q (fun c => { c with state := .foreign }) taken)

/-- R132, R133, R141, R142: the listen and capture commands. What they refuse changes nothing; a flush keeps reservations, the
next sequence and the lost count. -/
def Obligations.ListenAndCaptureCommands : Prop :=
  ∀ (i : ListenId) (arg : Byte) (tag : Half) (s : State), Ready s →
    let x := listenEntry i s
    let b := indexByte i
    let on := fun v => modListen i (fun x => { x with enabled := v }) s
    (x.enabled = true → exec (.listenEnable b tag) s = .next (refused 0x40#8 b tag .badState s))
      ∧ (x.enabled = false → x.mask = 0#8 ∨ 4 ≤ x.action.toNat →
          exec (.listenEnable b tag) s = .next (refused 0x40#8 b tag .badConfig s))
      ∧ (x.enabled = false → x.mask ≠ 0#8 → x.action.toNat < 4 →
          exec (.listenEnable b tag) s = .next (accepted 0x40#8 b tag (on true)))
      ∧ (x.enabled = false → exec (.listenDisable b tag) s = .next (refused 0x41#8 b tag .badState s))
      ∧ (x.enabled = true → exec (.listenDisable b tag) s = .next (accepted 0x41#8 b tag (on false)))
      ∧ (s.ring = [] → exec (.capturePop arg tag) s = .next (refused 0x50#8 arg tag .empty s))
      ∧ (∀ r rest, s.ring = r :: rest →
          exec (.capturePop arg tag) s = .next (accepted 0x50#8 arg tag { s with ring := rest }))
      ∧ exec (.captureFlush arg tag) s = .next (accepted 0x51#8 arg tag { s with ring := [] })

/-! ## Recovery and the segment commands -/

/-- R109, R110: the check of step 1 as RECOVERING is entered, the check after a clock line sensed high, the stop of step 3 and
the end of a recovery. At most 16 pulses; the stop after the line-clear hold is the last. A clock line low where the rule waits
for it, or low after the stop, is waited for (log entry 12). -/
def Obligations.RecoveryChecksAndStops : Prop :=
  ∀ (q : SegId) (n : Nat) (sda : Bool) (sense : RecoverySense) (after : Lines) (s : State),
    let s1 := modCtl q (fun c => { c with state := .recovering, bus := .busy, own := .quiet, busySince := none }) s
    (sense.check.scl = true →
        beginRecovery q sense s = recoveryCheck q 0 sense.check.sda sense.afterStop s1)
      ∧ (sense.check.scl = false → beginRecovery q sense s = recoveringAt q (.checkWait s.timebase) 0 s1)
      ∧ (sda = true → recoveryCheck q n sda after s = recoveryStop q n false after s)
      ∧ (sda = false → recoveryCheck q n sda after s = pulseOrHold q n s)
      ∧ (∀ final, after.scl = true → after.sda = true → recoveryStop q n final after s = recovered q s)
      ∧ (after.sda = false → recoveryStop q n false after s = pulseOrHold q n s)
      ∧ (after.scl = false → after.sda = true →
          recoveryStop q n false after s = recoveringAt q (.checkWait s.timebase) n s)
      ∧ (after.scl = false ∨ after.sda = false → recoveryStop q n true after s = faulted q s)

/-- R109 steps 1, 2 and 4: the events of a recovery in progress, each where the recovery stands at its step. R109 waits up to
the hold limit; that at the very tick of the limit the wait is over, and a line sensed high then changes nothing, is the model's
reading (log entry 27). -/
def Obligations.RecoveryEventsFollowTheSteps : Prop :=
  ∀ (q : SegId) (n : Nat) (lines after : Lines) (sda : Bool) (since : Word) (s : State), s.inReset = false →
    let atPhase := fun p => (ctl q s).recovery = some { phase := p, pulses := n }
    let limit := (ctl q s).cfg.holdLimit.toNat
    (atPhase .pulsing →
        (lines.scl = true → exec (.releasePulse q lines after) s = .next (recoveryCheck q (n + 1) lines.sda after s))
          ∧ (lines.scl = false →
              exec (.releasePulse q lines after) s = .next (recoveringAt q (.pulseWait s.timebase) (n + 1) s)))
      ∧ (atPhase (.lineClear since) → passed since 40 s →
          (lines.scl = true ∧ lines.sda = true →
              exec (.lineClearHoldEnd q lines after) s = .next (recoveryStop q n true after s))
            ∧ (¬(lines.scl = true ∧ lines.sda = true) →
                exec (.lineClearHoldEnd q lines after) s = .next (recoveringAt q (.clearWait s.timebase) n s)))
      ∧ (atPhase (.lineClear since) → ¬passed since 40 s → exec (.lineClearHoldEnd q lines after) s = .next s)
      ∧ (atPhase (.checkWait since) ∨ atPhase (.pulseWait since) ∨ atPhase (.clearWait since) →
          (passed since limit s → exec (.recoveryHoldTimeout q) s = .next (faulted q s))
            ∧ (¬passed since limit s → exec (.recoveryHoldTimeout q) s = .next s)
            ∧ (passed since limit s → exec (.recoveryLinesSensedHigh q sda after) s = .next s))
      ∧ (atPhase (.checkWait since) ∨ atPhase (.pulseWait since) → ¬passed since limit s →
          exec (.recoveryLinesSensedHigh q sda after) s = .next (recoveryCheck q n sda after s))
      ∧ (atPhase (.clearWait since) → ¬passed since limit s →
          exec (.recoveryLinesSensedHigh q sda after) s = .next (if sda = true then recoveryStop q n true after s else s))

/-- R111, R114: SEGMENT_ONLINE and SEGMENT_RESTORE, with the refusals each has and the levels the lines show. -/
def Obligations.SegmentsComeOnline : Prop :=
  ∀ (q : SegId) (tag : Half) (sense : SegmentSense) (r : RecoverySense) (s : State), Ready s →
    let b := indexByte q
    let c := (ctl q s).cfg
    let bad := c.speed = 3#2 ∨ c.holdLimit = 0#8 ∨ c.busyLimit = 0#8 ∨ c.threshold = 0#4
    let high := sense.lines.scl = true ∧ sense.lines.sda = true
    let online := exec (.segmentOnline b tag sense) s
    let restore := exec (.segmentRestore b tag r) s
    ((ctl q s).state ≠ .offline → online = .next (refused 0x20#8 b tag .badState s))
      ∧ ((ctl q s).state = .offline → bad → online = .next (refused 0x20#8 b tag .badConfig s))
      ∧ ((ctl q s).state = .offline → ¬bad → high →
          online = .next (accepted 0x20#8 b tag (modCtl q (fun c => { c with state := .idle, bus := .free }) s)))
      ∧ ((ctl q s).state = .offline → ¬bad → ¬high →
          online = .next (answered 0x20#8 tag .accepted .none (beginRecovery q sense.recovery (issued 0x20#8 b tag s))))
      ∧ ((ctl q s).state ≠ .quarantined → restore = .next (refused 0x22#8 b tag .badState s))
      ∧ ((ctl q s).state = .quarantined →
          restore
            = .next (answered 0x22#8 tag .accepted .none
                (beginRecovery q r (modCtl q (fun c => { c with streak := 0#4 }) (issued 0x22#8 b tag s)))))

/-- R112 and Table 6.5 (R113): SEGMENT_OFFLINE, by the controller's state and by where its active job stands. The model's
readings: the attempts used of a job ended between its attempts with its last attempt's outcome (log entry 10); the FLUSHED
completions of the queue are sent before the job's (log entry 16); the counts and attempts used of a FLUSHED completion are 0
(log entry 30). A job whose write frame has ended OK, with its settle delay running or its verify read not run, is FLUSHED. -/
def Obligations.SegmentOfflineStopsTheSegment : Prop :=
  ∀ (q : SegId) (tag : Half) (s : State), Ready s →
    let b := indexByte q
    let c := ctl q s
    let run := exec (.segmentOffline b tag) s
    let acc := fun t => Host.Outcome.next (answered 0x21#8 tag .accepted .none t)
    let online := c.state ≠ .offline ∧ c.state ≠ .stopping ∧ c.state ≠ .quarantined
    let wire := (∃ t, c.own = .frame t) ∨ ∃ t, c.own = .stopAttempt t
    let s0 := flushed q (issued 0x21#8 b tag s)
    let s1 := modCtl q (fun c =>
      { c with state := .stopping, busySince := none, recovery := none, addressExpected := false })
      { s0 with receptions := putAt s0.receptions q none }
    let s2 := modCtl q (fun c => { c with own := .quiet }) s1
    (c.state = .offline ∨ c.state = .stopping → run = .next (refused 0x21#8 b tag .badState s))
      ∧ (c.state = .quarantined → run = acc (noted 0x400#13 (modCtl q offline (issued 0x21#8 b tag s))))
      ∧ (online → ¬wire → c.active = none → run = acc (stopped q s2))
      ∧ (∀ a, online → wire → c.active = some a → a.phase = .running → run = acc s1)
      ∧ (∀ a, online → ¬wire → c.active = some a →
          (∀ o, a.phase = .due ∨ a.phase = .backoffPending ∨ (∃ t, a.phase = .backoff t) → a.last = some o →
              o.result ≠ .ok → run = acc (stopped q (finished q a o (usedBy a) s2)))
            ∧ (a.phase = .due ∨ a.phase = .backoffPending ∨ (∃ t, a.phase = .backoff t) →
                (∀ o, a.last = some o → o.result = .ok) →
                run = acc (stopped q (finished q a (noFrame .flushed) 0#4 s2)))
            ∧ ((∃ t, a.phase = .settle t) → run = acc (stopped q (finished q a (noFrame .flushed) 0#4 s2)))
            ∧ (a.phase = .recovering → run = acc (stopped q (finished q a (noFrame .lineStuck) (usedBy a) s2))))

/-! ## Direct Transaction Slots -/

/-- R122 with Table 7.3: SLOT_SUBMIT. -/
def Obligations.SlotSubmitFollowsTheTable : Prop :=
  ∀ (k : SlotId) (tag : Half) (s : State), Ready s →
    let x := slot k s
    let b := indexByte k
    let run := exec (.slotSubmit b tag) s
    let w := x.writeCount.toNat
    let r := x.readCount.toNat
    let bad := 4 ≤ x.kind.toNat ∨ (x.kind = 1#3 ∧ 32 < w) ∨ (x.kind = 2#3 ∧ (r = 0 ∨ 32 < r))
      ∨ (x.kind = 3#3 ∧ (w = 0 ∨ 32 < w ∨ r = 0 ∨ 32 < r))
    let job : Job := { ref := .direct k, cls := .urgent, tag := none, attempts := 0#3 }
    (x.state ≠ .free → run = .next (refused 0x30#8 b tag .badState s))
      ∧ (x.state = .free → bad → run = .next (refused 0x30#8 b tag .badConfig s))
      ∧ (x.state = .free → ¬bad → answerOf x.seg .urgent s = .full →
          run = .next (refused 0x30#8 b tag .queueFull s))
      ∧ (x.state = .free → ¬bad → answerOf x.seg .urgent s = .down →
          run = .next (refused 0x30#8 b tag .segmentDown s))
      ∧ (x.state = .free → ¬bad → answerOf x.seg .urgent s = .admitted →
          run = .next (accepted 0x30#8 b tag
            (modSlot k (fun x =>
              { x with
                state := .submitted, result := .noneRecorded, acked := 0#6, received := 0#6, attemptsUsed := 0#4 })
              (joined x.seg job s))))

/-- R125 to R128, R115, R85 and Table 7.4: SLOT_CANCEL by the slot's state, what the abort request it sends does by where the
DIRECT job stands, and SLOT_RELEASE. In a frame it requests the early end at the next byte boundary. An abort request that finds
no job of the slot changes nothing. The model's readings: the controller takes the abort request in SLOT_CANCEL's own event,
though R115, R126 and R127 let other events come between the two (log entry 7); what has passed on the lines before the command
has been taken by then (log entry 13). -/
def Obligations.SlotCancelAndRelease : Prop :=
  ∀ (k : SlotId) (tag : Half) (s : State), Ready s →
    let x := slot k s
    let b := indexByte k
    let cancel := exec (.slotCancel b tag) s
    let release := exec (.slotRelease b tag) s
    let removed := if holds (.direct k) (queue x.seg s) = true then left x.seg (.direct k) s else s
    (∀ reports, Ready (linesPass reports s)
        ∧ exec (.slotCancel b tag reports) s = exec (.slotCancel b tag) (linesPass reports s))
      ∧ (x.state = .free → cancel = .next (refused 0x31#8 b tag .badState s))
      ∧ (x.state = .done → cancel = .next (refused 0x31#8 b tag .tooLate s))
      ∧ (x.state = .submitted →
          cancel = .next (accepted 0x31#8 b tag
            (noted 0x020#13 (modSlot k (endedSlot .cancelled 0#6 0#6 0#4 []) removed))))
      ∧ (x.state = .active → x.cancelPending = true → cancel = .next (accepted 0x31#8 b tag s))
      ∧ (x.state = .active → x.cancelPending = false →
          cancel = .next (answered 0x31#8 tag .accepted .none
            (abortRequest x.seg k (modSlot k (fun x => { x with cancelPending := true }) (issued 0x31#8 b tag s)))))
      ∧ (x.state = .done → release = .next (accepted 0x32#8 b tag (modSlot k (fun x => { x with state := .free }) s)))
      ∧ (x.state ≠ .done → release = .next (refused 0x32#8 b tag .badState s))
      ∧ ∀ q : SegId,
        (∀ a t, (ctl q s).active = some a → a.job.ref = .direct k → (ctl q s).own = .frame t →
          abortRequest q k s
            = modCtl q (fun c => { c with earlyEnd := endNext q s, active := some { a with abortPending := true } }) s)
        ∧ (∀ a t, (ctl q s).active = some a → a.job.ref = .direct k → (ctl q s).own = .stopAttempt t → abortRequest q k s = s)
        ∧ (∀ a, (ctl q s).active = some a → a.job.ref = .direct k → (ctl q s).own = .quiet → a.phase = .recovering →
            (ctl q s).state = .recovering → abortRequest q k s = finished q a (noFrame .cancelled) (usedBy a) s)
        ∧ (∀ a, (ctl q s).active = some a → a.job.ref = .direct k →
            ((∃ t, (ctl q s).own = .startWait t) ∨ ((ctl q s).own = .quiet ∧ a.phase ≠ .recovering)) →
            abortRequest q k s = afterCompletion q (finished q a (noFrame .cancelled) (a.job.attempts.setWidth 4) s))
        ∧ ((ctl q s).active.map (fun a => a.job.ref) ≠ some (.direct k) → abortRequest q k s = s)

/-- R124, R118: the slot takes the completion of its DIRECT job: result fields, read part, cancel pending, SLOT_DONE; in the
event in which its controller completes the job, and by SLOT_COMPLETION where a completion of it is in flight. Without one
nothing is taken (log entry 7). -/
def Obligations.SlotCompletionsFillTheSlot : Prop :=
  ∀ (k : SlotId) (c : Completion) (before after : List Report) (s : State), s.inReset = false →
    (∀ r ∈ before, r.ref ≠ .direct k) → c.ref = .direct k →
    (s.reports = before ++ .completed c :: after →
        exec (.slotCompletion k) s
          = .next (noted 0x020#13
              (modSlot k (endedSlot c.result c.acked c.received c.attemptsUsed c.bytes)
                { s with reports := before ++ after })))
      ∧ (s.reports = before → exec (.slotCompletion k) s = .next s)
      ∧ ∀ (q : SegId) (a : ActiveJob) (o : FrameOutcome) (used : BitVec 4), (ctl q s).active = some a → a.job.ref = .direct k →
        let t := completeJob q o used s
        slot k t = endedSlot o.result o.acked o.received used (carried q a o s) (slot k s) ∧ t.reports = s.reports
          ∧ t.flags = s.flags ||| 0x020#13 ∧ (ctl q t).active = none ∧ ∀ j, j ≠ k → slot j t = slot j s

/-! ## Soft reset -/

/-- R149 to R151, with R116, R73, R26, R47, R129, R144 and R153: SOFT_RESET taken outside RESETTING is accepted and enters it; each
delivery is an event of its own, with what it does to its block, and they are taken in the order of R149; RESETTING ends once all
are taken and every controller is OFFLINE. A write dropped before delivery 7 leaves the access-error record and count and no
flag, one dropped later keeps its flag (R150). Taken as a whole, the reset keeps configuration, published and staging bytes,
group periods, enables and the access-error record. The model's choices: how many deliveries are taken before the next command
of the queue, and the segments' order within deliveries 1 and 2 (log entry 32); reports and notices in flight are discarded (log
entry 8); what has passed on the lines before the command has been taken by then (log entry 13). -/
def Obligations.SoftResetDeliversToEveryBlock : Prop :=
  (∀ (arg : Byte) (tag : Half) (s : State), Ready s →
      (∀ reports taken, Ready (linesPass reports s)
          ∧ exec (.softReset arg tag reports taken) s = exec (.softReset arg tag [] taken) (linesPass reports s))
        ∧ ∀ taken : Fin 21, exec (.softReset arg tag [] taken) s
            = .next (nextDeliveries taken.val (accepted 0x7F#8 arg tag { s with resetting := true, undelivered := 20 })))
    ∧ (∀ s : State, s.undelivered = 20 →
        deliveriesLeft s = [.controller 0, .controller 1, .controller 2, .controller 3, .controller 4, .controller 5, .controller 6,
          .controller 7, .queue 0, .queue 1, .queue 2, .queue 3, .queue 4, .queue 5, .queue 6, .queue 7, .mirrorAndScheduler,
          .slots, .listen, .events])
    ∧ (∀ (s : State) (d : Delivery) (rest : List Delivery), s.resetting = true → deliveriesLeft s = d :: rest →
        nextDelivery s = resetTaken d s ∧ deliveriesLeft (resetTaken d s) = rest)
    ∧ (∀ (a : Addr) (l : Loc) (be : BitVec 4) (data : Word) (s : State), s.inReset = false → s.resetting = true →
        locate a = some l → l.kind ≠ .readOnly → (l.kind = .fullWord → be = 0xF#4) → (l.kind = .byteWritable → be ≠ 0#4) →
        l ≠ .global .command → l ≠ .global .flags →
        ∃ t, exec (.hostWrite a be data) s = .next t ∧ t = errorTaken a true .resetting s
          ∧ (Delivery.events ∈ deliveriesLeft s →
              let u := nextDeliveries s.undelivered.val t
              u.flags.getLsbD 11 = false ∧ u.accessRecord = t.accessRecord ∧ u.accessCount = t.accessCount)
          ∧ (Delivery.events ∉ deliveriesLeft s → t.flags.getLsbD 11 = true ∧ nextDelivery t = t))
    ∧ ∀ (arg : Byte) (tag : Half) (s : State), Ready s →
      ∃ t, exec (.softReset arg tag) s = .next t
        ∧ t.command = word 0x7F#8 arg tag ∧ t.result.outcome = .accepted ∧ t.result.tag = tag ∧ t.result.code = 0x7F#8
        ∧ t.undelivered = 0
        ∧ ((∃ q, onWire (ctl q s)) → t.resetting = true ∧ t.flags = 0#13)
        ∧ ((∀ q, ¬onWire (ctl q s)) → t.resetting = false ∧ t.flags = 0x1000#13)
        ∧ (∀ q, ¬onWire (ctl q s) → ctl q t = offline (ctl q s))
        ∧ (∀ q, onWire (ctl q s) →
            (ctl q t).state = .stopping ∧ (ctl q t).active = none ∧ (ctl q t).own = (ctl q s).own
              ∧ (ctl q t).cfg = (ctl q s).cfg ∧ (ctl q t).lastResult = (ctl q s).lastResult
              ∧ (ctl q t).streak = (ctl q s).streak)
        ∧ (∀ q, queue q t = { urgent := [], routine := [], streak := 0 } ∧ reception q t = none)
        ∧ (∀ e, entry e t
            = { entry e s with
                enable := .disabled, validity := .none, refresh := .idle, write := .none, writeOvertaken := false
                refreshAgain := false, writeAgain := false, faultMark := false, held := Vector.replicate 32 0#8
                dueTime := none })
        ∧ (∀ g, group g t = { Group.reset with period := (group g s).period })
        ∧ (∀ k, slot k t = Slot.reset)
        ∧ (∀ i, listenEntry i t = { listenEntry i s with enabled := false })
        ∧ t.ring = [] ∧ t.nextSequence = 0#16 ∧ t.lostCount = 0#16 ∧ t.reports = [] ∧ t.notices = []
        ∧ t.enables = s.enables ∧ t.timebase = s.timebase ∧ t.accessRecord = s.accessRecord
        ∧ t.accessCount = s.accessCount ∧ t.detailSelect = s.detailSelect ∧ t.readData = s.readData
        ∧ t.pending = s.pending ∧ t.freeIndex = s.freeIndex ∧ t.inReset = false

/-! ## Invariants every step keeps -/

/-- R60, R63, R70: no step takes a queue past 32 jobs, its ROUTINE class past 24, or its urgent streak past 4. -/
def Obligations.QueuesStayBounded : Prop :=
  ∀ s t : State, QueuesBounded s → step s = .next t → QueuesBounded t

/-- R135, R137: no step lets records and reservations together exceed the 32 places, and the records stay in the order of their
sequences. -/
def Obligations.RingStaysBoundedAndInOrder : Prop :=
  ∀ s t : State, RingBounded s → RingInOrder s → step s = .next t → RingBounded t ∧ RingInOrder t

/-- R66, R73, R93: every step keeps what Table 6.1 allows each controller state: an OFFLINE or QUARANTINED segment has an empty
queue, and so has one in STOPPING unless a soft reset has reached its controller and not yet its queue; OFFLINE and QUARANTINED
have no job, ACTIVE has one. -/
def Obligations.ControllerStatesStayLegal : Prop :=
  ∀ s t : State, ControllersOk s → step s = .next t → ControllersOk t

/-- R103, R95, R111: every step keeps the streak below the threshold outside QUARANTINED, at 0 in OFFLINE, and a valid
configuration outside OFFLINE. -/
def Obligations.StreaksStayBelowTheThreshold : Prop :=
  ∀ s t : State, ControllersOk s → StreaksOk s → step s = .next t → StreaksOk t

/-- The invariants hold in the state after pin reset. -/
def Obligations.InvariantsHoldAfterReset : Prop :=
  QueuesBounded State.reset ∧ RingBounded State.reset ∧ RingInOrder State.reset ∧ ControllersOk State.reset
    ∧ StreaksOk State.reset ∧ HeldInReset State.reset
end

