-- ==== Sys2Proof/Laws/State.lean ====
section
/-! SUPPORT. What each named update of the state changes and leaves: one lemma per field per update, and reading a record
back after it was replaced. -/

namespace Sys2Proof.Machine

/-! ## Arrays -/

@[simp] theorem getAt_putAt_same {α : Type} {n : Nat} (v : Vector α n) (i : Fin n) (x : α) :
    getAt (putAt v i x) i = x := by
  simp [getAt, putAt]

theorem getAt_putAt_ne {α : Type} {n : Nat} (v : Vector α n) {i j : Fin n} (x : α) (h : j ≠ i) :
    getAt (putAt v i x) j = getAt v j := by
  have h' : i.val ≠ j.val := fun e => h (Fin.ext e.symm)
  simp [getAt, putAt, h']

@[simp] theorem putAt_getAt {α : Type} {n : Nat} (v : Vector α n) (i : Fin n) : putAt v i (getAt v i) = v := by
  simp [getAt, putAt]

@[simp] theorem putAt_putAt {α : Type} {n : Nat} (v : Vector α n) (i : Fin n) (x y : α) :
    putAt (putAt v i x) i y = putAt v i y := by
  simp [putAt]

theorem getAt_ext {α : Type} {n : Nat} {v w : Vector α n} (h : ∀ i, getAt v i = getAt w i) : v = w := by
  apply Vector.ext
  intro i hi
  exact h ⟨i, hi⟩

@[simp] theorem getAt_tabulate {α : Type} (n : Nat) (f : Fin n → α) (i : Fin n) : getAt (tabulate n f) i = f i := by
  simp [getAt, tabulate]

@[simp] theorem getAt_replicate {α : Type} {n : Nat} (x : α) (i : Fin n) : getAt (Vector.replicate n x) i = x := by
  simp [getAt]

/-! ## modEntry -/

@[simp] theorem inReset_modEntry (e : EntryId) (f : Entry → Entry) (s : State) : (modEntry e f s).inReset = s.inReset := rfl
@[simp] theorem timebase_modEntry (e : EntryId) (f : Entry → Entry) (s : State) : (modEntry e f s).timebase = s.timebase := rfl
@[simp] theorem groups_modEntry (e : EntryId) (f : Entry → Entry) (s : State) : (modEntry e f s).groups = s.groups := rfl
@[simp] theorem queues_modEntry (e : EntryId) (f : Entry → Entry) (s : State) : (modEntry e f s).queues = s.queues := rfl
@[simp] theorem ctls_modEntry (e : EntryId) (f : Entry → Entry) (s : State) : (modEntry e f s).ctls = s.ctls := rfl
@[simp] theorem slots_modEntry (e : EntryId) (f : Entry → Entry) (s : State) : (modEntry e f s).slots = s.slots := rfl
@[simp] theorem listen_modEntry (e : EntryId) (f : Entry → Entry) (s : State) : (modEntry e f s).listen = s.listen := rfl
@[simp] theorem receptions_modEntry (e : EntryId) (f : Entry → Entry) (s : State) : (modEntry e f s).receptions = s.receptions := rfl
@[simp] theorem ring_modEntry (e : EntryId) (f : Entry → Entry) (s : State) : (modEntry e f s).ring = s.ring := rfl
@[simp] theorem nextSequence_modEntry (e : EntryId) (f : Entry → Entry) (s : State) : (modEntry e f s).nextSequence = s.nextSequence := rfl
@[simp] theorem lostCount_modEntry (e : EntryId) (f : Entry → Entry) (s : State) : (modEntry e f s).lostCount = s.lostCount := rfl
@[simp] theorem flags_modEntry (e : EntryId) (f : Entry → Entry) (s : State) : (modEntry e f s).flags = s.flags := rfl
@[simp] theorem enables_modEntry (e : EntryId) (f : Entry → Entry) (s : State) : (modEntry e f s).enables = s.enables := rfl
@[simp] theorem command_modEntry (e : EntryId) (f : Entry → Entry) (s : State) : (modEntry e f s).command = s.command := rfl
@[simp] theorem result_modEntry (e : EntryId) (f : Entry → Entry) (s : State) : (modEntry e f s).result = s.result := rfl
@[simp] theorem resetting_modEntry (e : EntryId) (f : Entry → Entry) (s : State) : (modEntry e f s).resetting = s.resetting := rfl
@[simp] theorem undelivered_modEntry (e : EntryId) (f : Entry → Entry) (s : State) : (modEntry e f s).undelivered = s.undelivered := rfl
@[simp] theorem accessRecord_modEntry (e : EntryId) (f : Entry → Entry) (s : State) : (modEntry e f s).accessRecord = s.accessRecord := rfl
@[simp] theorem accessCount_modEntry (e : EntryId) (f : Entry → Entry) (s : State) : (modEntry e f s).accessCount = s.accessCount := rfl
@[simp] theorem detailSelect_modEntry (e : EntryId) (f : Entry → Entry) (s : State) : (modEntry e f s).detailSelect = s.detailSelect := rfl
@[simp] theorem readData_modEntry (e : EntryId) (f : Entry → Entry) (s : State) : (modEntry e f s).readData = s.readData := rfl
@[simp] theorem reports_modEntry (e : EntryId) (f : Entry → Entry) (s : State) : (modEntry e f s).reports = s.reports := rfl
@[simp] theorem notices_modEntry (e : EntryId) (f : Entry → Entry) (s : State) : (modEntry e f s).notices = s.notices := rfl
@[simp] theorem freeIndex_modEntry (e : EntryId) (f : Entry → Entry) (s : State) : (modEntry e f s).freeIndex = s.freeIndex := rfl
@[simp] theorem pending_modEntry (e : EntryId) (f : Entry → Entry) (s : State) : (modEntry e f s).pending = s.pending := rfl
@[simp] theorem group_modEntry (e : EntryId) (f : Entry → Entry) (j : GroupId) (s : State) : group j (modEntry e f s) = group j s := rfl
@[simp] theorem queue_modEntry (e : EntryId) (f : Entry → Entry) (j : SegId) (s : State) : queue j (modEntry e f s) = queue j s := rfl
@[simp] theorem ctl_modEntry (e : EntryId) (f : Entry → Entry) (j : SegId) (s : State) : ctl j (modEntry e f s) = ctl j s := rfl
@[simp] theorem slot_modEntry (e : EntryId) (f : Entry → Entry) (j : SlotId) (s : State) : slot j (modEntry e f s) = slot j s := rfl
@[simp] theorem listenEntry_modEntry (e : EntryId) (f : Entry → Entry) (j : ListenId) (s : State) : listenEntry j (modEntry e f s) = listenEntry j s := rfl
@[simp] theorem reception_modEntry (e : EntryId) (f : Entry → Entry) (j : SegId) (s : State) : reception j (modEntry e f s) = reception j s := rfl

/-! ## modGroup -/

@[simp] theorem inReset_modGroup (g : GroupId) (f : Group → Group) (s : State) : (modGroup g f s).inReset = s.inReset := rfl
@[simp] theorem timebase_modGroup (g : GroupId) (f : Group → Group) (s : State) : (modGroup g f s).timebase = s.timebase := rfl
@[simp] theorem entries_modGroup (g : GroupId) (f : Group → Group) (s : State) : (modGroup g f s).entries = s.entries := rfl
@[simp] theorem queues_modGroup (g : GroupId) (f : Group → Group) (s : State) : (modGroup g f s).queues = s.queues := rfl
@[simp] theorem ctls_modGroup (g : GroupId) (f : Group → Group) (s : State) : (modGroup g f s).ctls = s.ctls := rfl
@[simp] theorem slots_modGroup (g : GroupId) (f : Group → Group) (s : State) : (modGroup g f s).slots = s.slots := rfl
@[simp] theorem listen_modGroup (g : GroupId) (f : Group → Group) (s : State) : (modGroup g f s).listen = s.listen := rfl
@[simp] theorem receptions_modGroup (g : GroupId) (f : Group → Group) (s : State) : (modGroup g f s).receptions = s.receptions := rfl
@[simp] theorem ring_modGroup (g : GroupId) (f : Group → Group) (s : State) : (modGroup g f s).ring = s.ring := rfl
@[simp] theorem nextSequence_modGroup (g : GroupId) (f : Group → Group) (s : State) : (modGroup g f s).nextSequence = s.nextSequence := rfl
@[simp] theorem lostCount_modGroup (g : GroupId) (f : Group → Group) (s : State) : (modGroup g f s).lostCount = s.lostCount := rfl
@[simp] theorem flags_modGroup (g : GroupId) (f : Group → Group) (s : State) : (modGroup g f s).flags = s.flags := rfl
@[simp] theorem enables_modGroup (g : GroupId) (f : Group → Group) (s : State) : (modGroup g f s).enables = s.enables := rfl
@[simp] theorem command_modGroup (g : GroupId) (f : Group → Group) (s : State) : (modGroup g f s).command = s.command := rfl
@[simp] theorem result_modGroup (g : GroupId) (f : Group → Group) (s : State) : (modGroup g f s).result = s.result := rfl
@[simp] theorem resetting_modGroup (g : GroupId) (f : Group → Group) (s : State) : (modGroup g f s).resetting = s.resetting := rfl
@[simp] theorem undelivered_modGroup (g : GroupId) (f : Group → Group) (s : State) : (modGroup g f s).undelivered = s.undelivered := rfl
@[simp] theorem accessRecord_modGroup (g : GroupId) (f : Group → Group) (s : State) : (modGroup g f s).accessRecord = s.accessRecord := rfl
@[simp] theorem accessCount_modGroup (g : GroupId) (f : Group → Group) (s : State) : (modGroup g f s).accessCount = s.accessCount := rfl
@[simp] theorem detailSelect_modGroup (g : GroupId) (f : Group → Group) (s : State) : (modGroup g f s).detailSelect = s.detailSelect := rfl
@[simp] theorem readData_modGroup (g : GroupId) (f : Group → Group) (s : State) : (modGroup g f s).readData = s.readData := rfl
@[simp] theorem reports_modGroup (g : GroupId) (f : Group → Group) (s : State) : (modGroup g f s).reports = s.reports := rfl
@[simp] theorem notices_modGroup (g : GroupId) (f : Group → Group) (s : State) : (modGroup g f s).notices = s.notices := rfl
@[simp] theorem freeIndex_modGroup (g : GroupId) (f : Group → Group) (s : State) : (modGroup g f s).freeIndex = s.freeIndex := rfl
@[simp] theorem pending_modGroup (g : GroupId) (f : Group → Group) (s : State) : (modGroup g f s).pending = s.pending := rfl
@[simp] theorem entry_modGroup (g : GroupId) (f : Group → Group) (j : EntryId) (s : State) : entry j (modGroup g f s) = entry j s := rfl
@[simp] theorem queue_modGroup (g : GroupId) (f : Group → Group) (j : SegId) (s : State) : queue j (modGroup g f s) = queue j s := rfl
@[simp] theorem ctl_modGroup (g : GroupId) (f : Group → Group) (j : SegId) (s : State) : ctl j (modGroup g f s) = ctl j s := rfl
@[simp] theorem slot_modGroup (g : GroupId) (f : Group → Group) (j : SlotId) (s : State) : slot j (modGroup g f s) = slot j s := rfl
@[simp] theorem listenEntry_modGroup (g : GroupId) (f : Group → Group) (j : ListenId) (s : State) : listenEntry j (modGroup g f s) = listenEntry j s := rfl
@[simp] theorem reception_modGroup (g : GroupId) (f : Group → Group) (j : SegId) (s : State) : reception j (modGroup g f s) = reception j s := rfl

/-! ## setQueue -/

@[simp] theorem inReset_setQueue (q : SegId) (x : SegQueue) (s : State) : (setQueue q x s).inReset = s.inReset := rfl
@[simp] theorem timebase_setQueue (q : SegId) (x : SegQueue) (s : State) : (setQueue q x s).timebase = s.timebase := rfl
@[simp] theorem entries_setQueue (q : SegId) (x : SegQueue) (s : State) : (setQueue q x s).entries = s.entries := rfl
@[simp] theorem groups_setQueue (q : SegId) (x : SegQueue) (s : State) : (setQueue q x s).groups = s.groups := rfl
@[simp] theorem ctls_setQueue (q : SegId) (x : SegQueue) (s : State) : (setQueue q x s).ctls = s.ctls := rfl
@[simp] theorem slots_setQueue (q : SegId) (x : SegQueue) (s : State) : (setQueue q x s).slots = s.slots := rfl
@[simp] theorem listen_setQueue (q : SegId) (x : SegQueue) (s : State) : (setQueue q x s).listen = s.listen := rfl
@[simp] theorem receptions_setQueue (q : SegId) (x : SegQueue) (s : State) : (setQueue q x s).receptions = s.receptions := rfl
@[simp] theorem ring_setQueue (q : SegId) (x : SegQueue) (s : State) : (setQueue q x s).ring = s.ring := rfl
@[simp] theorem nextSequence_setQueue (q : SegId) (x : SegQueue) (s : State) : (setQueue q x s).nextSequence = s.nextSequence := rfl
@[simp] theorem lostCount_setQueue (q : SegId) (x : SegQueue) (s : State) : (setQueue q x s).lostCount = s.lostCount := rfl
@[simp] theorem flags_setQueue (q : SegId) (x : SegQueue) (s : State) : (setQueue q x s).flags = s.flags := rfl
@[simp] theorem enables_setQueue (q : SegId) (x : SegQueue) (s : State) : (setQueue q x s).enables = s.enables := rfl
@[simp] theorem command_setQueue (q : SegId) (x : SegQueue) (s : State) : (setQueue q x s).command = s.command := rfl
@[simp] theorem result_setQueue (q : SegId) (x : SegQueue) (s : State) : (setQueue q x s).result = s.result := rfl
@[simp] theorem resetting_setQueue (q : SegId) (x : SegQueue) (s : State) : (setQueue q x s).resetting = s.resetting := rfl
@[simp] theorem undelivered_setQueue (q : SegId) (x : SegQueue) (s : State) : (setQueue q x s).undelivered = s.undelivered := rfl
@[simp] theorem accessRecord_setQueue (q : SegId) (x : SegQueue) (s : State) : (setQueue q x s).accessRecord = s.accessRecord := rfl
@[simp] theorem accessCount_setQueue (q : SegId) (x : SegQueue) (s : State) : (setQueue q x s).accessCount = s.accessCount := rfl
@[simp] theorem detailSelect_setQueue (q : SegId) (x : SegQueue) (s : State) : (setQueue q x s).detailSelect = s.detailSelect := rfl
@[simp] theorem readData_setQueue (q : SegId) (x : SegQueue) (s : State) : (setQueue q x s).readData = s.readData := rfl
@[simp] theorem reports_setQueue (q : SegId) (x : SegQueue) (s : State) : (setQueue q x s).reports = s.reports := rfl
@[simp] theorem notices_setQueue (q : SegId) (x : SegQueue) (s : State) : (setQueue q x s).notices = s.notices := rfl
@[simp] theorem freeIndex_setQueue (q : SegId) (x : SegQueue) (s : State) : (setQueue q x s).freeIndex = s.freeIndex := rfl
@[simp] theorem pending_setQueue (q : SegId) (x : SegQueue) (s : State) : (setQueue q x s).pending = s.pending := rfl
@[simp] theorem entry_setQueue (q : SegId) (x : SegQueue) (j : EntryId) (s : State) : entry j (setQueue q x s) = entry j s := rfl
@[simp] theorem group_setQueue (q : SegId) (x : SegQueue) (j : GroupId) (s : State) : group j (setQueue q x s) = group j s := rfl
@[simp] theorem ctl_setQueue (q : SegId) (x : SegQueue) (j : SegId) (s : State) : ctl j (setQueue q x s) = ctl j s := rfl
@[simp] theorem slot_setQueue (q : SegId) (x : SegQueue) (j : SlotId) (s : State) : slot j (setQueue q x s) = slot j s := rfl
@[simp] theorem listenEntry_setQueue (q : SegId) (x : SegQueue) (j : ListenId) (s : State) : listenEntry j (setQueue q x s) = listenEntry j s := rfl
@[simp] theorem reception_setQueue (q : SegId) (x : SegQueue) (j : SegId) (s : State) : reception j (setQueue q x s) = reception j s := rfl

/-! ## modCtl -/

@[simp] theorem inReset_modCtl (q : SegId) (f : Controller → Controller) (s : State) : (modCtl q f s).inReset = s.inReset := rfl
@[simp] theorem timebase_modCtl (q : SegId) (f : Controller → Controller) (s : State) : (modCtl q f s).timebase = s.timebase := rfl
@[simp] theorem entries_modCtl (q : SegId) (f : Controller → Controller) (s : State) : (modCtl q f s).entries = s.entries := rfl
@[simp] theorem groups_modCtl (q : SegId) (f : Controller → Controller) (s : State) : (modCtl q f s).groups = s.groups := rfl
@[simp] theorem queues_modCtl (q : SegId) (f : Controller → Controller) (s : State) : (modCtl q f s).queues = s.queues := rfl
@[simp] theorem slots_modCtl (q : SegId) (f : Controller → Controller) (s : State) : (modCtl q f s).slots = s.slots := rfl
@[simp] theorem listen_modCtl (q : SegId) (f : Controller → Controller) (s : State) : (modCtl q f s).listen = s.listen := rfl
@[simp] theorem receptions_modCtl (q : SegId) (f : Controller → Controller) (s : State) : (modCtl q f s).receptions = s.receptions := rfl
@[simp] theorem ring_modCtl (q : SegId) (f : Controller → Controller) (s : State) : (modCtl q f s).ring = s.ring := rfl
@[simp] theorem nextSequence_modCtl (q : SegId) (f : Controller → Controller) (s : State) : (modCtl q f s).nextSequence = s.nextSequence := rfl
@[simp] theorem lostCount_modCtl (q : SegId) (f : Controller → Controller) (s : State) : (modCtl q f s).lostCount = s.lostCount := rfl
@[simp] theorem flags_modCtl (q : SegId) (f : Controller → Controller) (s : State) : (modCtl q f s).flags = s.flags := rfl
@[simp] theorem enables_modCtl (q : SegId) (f : Controller → Controller) (s : State) : (modCtl q f s).enables = s.enables := rfl
@[simp] theorem command_modCtl (q : SegId) (f : Controller → Controller) (s : State) : (modCtl q f s).command = s.command := rfl
@[simp] theorem result_modCtl (q : SegId) (f : Controller → Controller) (s : State) : (modCtl q f s).result = s.result := rfl
@[simp] theorem resetting_modCtl (q : SegId) (f : Controller → Controller) (s : State) : (modCtl q f s).resetting = s.resetting := rfl
@[simp] theorem undelivered_modCtl (q : SegId) (f : Controller → Controller) (s : State) : (modCtl q f s).undelivered = s.undelivered := rfl
@[simp] theorem accessRecord_modCtl (q : SegId) (f : Controller → Controller) (s : State) : (modCtl q f s).accessRecord = s.accessRecord := rfl
@[simp] theorem accessCount_modCtl (q : SegId) (f : Controller → Controller) (s : State) : (modCtl q f s).accessCount = s.accessCount := rfl
@[simp] theorem detailSelect_modCtl (q : SegId) (f : Controller → Controller) (s : State) : (modCtl q f s).detailSelect = s.detailSelect := rfl
@[simp] theorem readData_modCtl (q : SegId) (f : Controller → Controller) (s : State) : (modCtl q f s).readData = s.readData := rfl
@[simp] theorem reports_modCtl (q : SegId) (f : Controller → Controller) (s : State) : (modCtl q f s).reports = s.reports := rfl
@[simp] theorem notices_modCtl (q : SegId) (f : Controller → Controller) (s : State) : (modCtl q f s).notices = s.notices := rfl
@[simp] theorem freeIndex_modCtl (q : SegId) (f : Controller → Controller) (s : State) : (modCtl q f s).freeIndex = s.freeIndex := rfl
@[simp] theorem pending_modCtl (q : SegId) (f : Controller → Controller) (s : State) : (modCtl q f s).pending = s.pending := rfl
@[simp] theorem entry_modCtl (q : SegId) (f : Controller → Controller) (j : EntryId) (s : State) : entry j (modCtl q f s) = entry j s := rfl
@[simp] theorem group_modCtl (q : SegId) (f : Controller → Controller) (j : GroupId) (s : State) : group j (modCtl q f s) = group j s := rfl
@[simp] theorem queue_modCtl (q : SegId) (f : Controller → Controller) (j : SegId) (s : State) : queue j (modCtl q f s) = queue j s := rfl
@[simp] theorem slot_modCtl (q : SegId) (f : Controller → Controller) (j : SlotId) (s : State) : slot j (modCtl q f s) = slot j s := rfl
@[simp] theorem listenEntry_modCtl (q : SegId) (f : Controller → Controller) (j : ListenId) (s : State) : listenEntry j (modCtl q f s) = listenEntry j s := rfl
@[simp] theorem reception_modCtl (q : SegId) (f : Controller → Controller) (j : SegId) (s : State) : reception j (modCtl q f s) = reception j s := rfl

/-! ## modSlot -/

@[simp] theorem inReset_modSlot (k : SlotId) (f : Slot → Slot) (s : State) : (modSlot k f s).inReset = s.inReset := rfl
@[simp] theorem timebase_modSlot (k : SlotId) (f : Slot → Slot) (s : State) : (modSlot k f s).timebase = s.timebase := rfl
@[simp] theorem entries_modSlot (k : SlotId) (f : Slot → Slot) (s : State) : (modSlot k f s).entries = s.entries := rfl
@[simp] theorem groups_modSlot (k : SlotId) (f : Slot → Slot) (s : State) : (modSlot k f s).groups = s.groups := rfl
@[simp] theorem queues_modSlot (k : SlotId) (f : Slot → Slot) (s : State) : (modSlot k f s).queues = s.queues := rfl
@[simp] theorem ctls_modSlot (k : SlotId) (f : Slot → Slot) (s : State) : (modSlot k f s).ctls = s.ctls := rfl
@[simp] theorem listen_modSlot (k : SlotId) (f : Slot → Slot) (s : State) : (modSlot k f s).listen = s.listen := rfl
@[simp] theorem receptions_modSlot (k : SlotId) (f : Slot → Slot) (s : State) : (modSlot k f s).receptions = s.receptions := rfl
@[simp] theorem ring_modSlot (k : SlotId) (f : Slot → Slot) (s : State) : (modSlot k f s).ring = s.ring := rfl
@[simp] theorem nextSequence_modSlot (k : SlotId) (f : Slot → Slot) (s : State) : (modSlot k f s).nextSequence = s.nextSequence := rfl
@[simp] theorem lostCount_modSlot (k : SlotId) (f : Slot → Slot) (s : State) : (modSlot k f s).lostCount = s.lostCount := rfl
@[simp] theorem flags_modSlot (k : SlotId) (f : Slot → Slot) (s : State) : (modSlot k f s).flags = s.flags := rfl
@[simp] theorem enables_modSlot (k : SlotId) (f : Slot → Slot) (s : State) : (modSlot k f s).enables = s.enables := rfl
@[simp] theorem command_modSlot (k : SlotId) (f : Slot → Slot) (s : State) : (modSlot k f s).command = s.command := rfl
@[simp] theorem result_modSlot (k : SlotId) (f : Slot → Slot) (s : State) : (modSlot k f s).result = s.result := rfl
@[simp] theorem resetting_modSlot (k : SlotId) (f : Slot → Slot) (s : State) : (modSlot k f s).resetting = s.resetting := rfl
@[simp] theorem undelivered_modSlot (k : SlotId) (f : Slot → Slot) (s : State) : (modSlot k f s).undelivered = s.undelivered := rfl
@[simp] theorem accessRecord_modSlot (k : SlotId) (f : Slot → Slot) (s : State) : (modSlot k f s).accessRecord = s.accessRecord := rfl
@[simp] theorem accessCount_modSlot (k : SlotId) (f : Slot → Slot) (s : State) : (modSlot k f s).accessCount = s.accessCount := rfl
@[simp] theorem detailSelect_modSlot (k : SlotId) (f : Slot → Slot) (s : State) : (modSlot k f s).detailSelect = s.detailSelect := rfl
@[simp] theorem readData_modSlot (k : SlotId) (f : Slot → Slot) (s : State) : (modSlot k f s).readData = s.readData := rfl
@[simp] theorem reports_modSlot (k : SlotId) (f : Slot → Slot) (s : State) : (modSlot k f s).reports = s.reports := rfl
@[simp] theorem notices_modSlot (k : SlotId) (f : Slot → Slot) (s : State) : (modSlot k f s).notices = s.notices := rfl
@[simp] theorem freeIndex_modSlot (k : SlotId) (f : Slot → Slot) (s : State) : (modSlot k f s).freeIndex = s.freeIndex := rfl
@[simp] theorem pending_modSlot (k : SlotId) (f : Slot → Slot) (s : State) : (modSlot k f s).pending = s.pending := rfl
@[simp] theorem entry_modSlot (k : SlotId) (f : Slot → Slot) (j : EntryId) (s : State) : entry j (modSlot k f s) = entry j s := rfl
@[simp] theorem group_modSlot (k : SlotId) (f : Slot → Slot) (j : GroupId) (s : State) : group j (modSlot k f s) = group j s := rfl
@[simp] theorem queue_modSlot (k : SlotId) (f : Slot → Slot) (j : SegId) (s : State) : queue j (modSlot k f s) = queue j s := rfl
@[simp] theorem ctl_modSlot (k : SlotId) (f : Slot → Slot) (j : SegId) (s : State) : ctl j (modSlot k f s) = ctl j s := rfl
@[simp] theorem listenEntry_modSlot (k : SlotId) (f : Slot → Slot) (j : ListenId) (s : State) : listenEntry j (modSlot k f s) = listenEntry j s := rfl
@[simp] theorem reception_modSlot (k : SlotId) (f : Slot → Slot) (j : SegId) (s : State) : reception j (modSlot k f s) = reception j s := rfl

/-! ## modListen -/

@[simp] theorem inReset_modListen (i : ListenId) (f : ListenEntry → ListenEntry) (s : State) : (modListen i f s).inReset = s.inReset := rfl
@[simp] theorem timebase_modListen (i : ListenId) (f : ListenEntry → ListenEntry) (s : State) : (modListen i f s).timebase = s.timebase := rfl
@[simp] theorem entries_modListen (i : ListenId) (f : ListenEntry → ListenEntry) (s : State) : (modListen i f s).entries = s.entries := rfl
@[simp] theorem groups_modListen (i : ListenId) (f : ListenEntry → ListenEntry) (s : State) : (modListen i f s).groups = s.groups := rfl
@[simp] theorem queues_modListen (i : ListenId) (f : ListenEntry → ListenEntry) (s : State) : (modListen i f s).queues = s.queues := rfl
@[simp] theorem ctls_modListen (i : ListenId) (f : ListenEntry → ListenEntry) (s : State) : (modListen i f s).ctls = s.ctls := rfl
@[simp] theorem slots_modListen (i : ListenId) (f : ListenEntry → ListenEntry) (s : State) : (modListen i f s).slots = s.slots := rfl
@[simp] theorem receptions_modListen (i : ListenId) (f : ListenEntry → ListenEntry) (s : State) : (modListen i f s).receptions = s.receptions := rfl
@[simp] theorem ring_modListen (i : ListenId) (f : ListenEntry → ListenEntry) (s : State) : (modListen i f s).ring = s.ring := rfl
@[simp] theorem nextSequence_modListen (i : ListenId) (f : ListenEntry → ListenEntry) (s : State) : (modListen i f s).nextSequence = s.nextSequence := rfl
@[simp] theorem lostCount_modListen (i : ListenId) (f : ListenEntry → ListenEntry) (s : State) : (modListen i f s).lostCount = s.lostCount := rfl
@[simp] theorem flags_modListen (i : ListenId) (f : ListenEntry → ListenEntry) (s : State) : (modListen i f s).flags = s.flags := rfl
@[simp] theorem enables_modListen (i : ListenId) (f : ListenEntry → ListenEntry) (s : State) : (modListen i f s).enables = s.enables := rfl
@[simp] theorem command_modListen (i : ListenId) (f : ListenEntry → ListenEntry) (s : State) : (modListen i f s).command = s.command := rfl
@[simp] theorem result_modListen (i : ListenId) (f : ListenEntry → ListenEntry) (s : State) : (modListen i f s).result = s.result := rfl
@[simp] theorem resetting_modListen (i : ListenId) (f : ListenEntry → ListenEntry) (s : State) : (modListen i f s).resetting = s.resetting := rfl
@[simp] theorem undelivered_modListen (i : ListenId) (f : ListenEntry → ListenEntry) (s : State) : (modListen i f s).undelivered = s.undelivered := rfl
@[simp] theorem accessRecord_modListen (i : ListenId) (f : ListenEntry → ListenEntry) (s : State) : (modListen i f s).accessRecord = s.accessRecord := rfl
@[simp] theorem accessCount_modListen (i : ListenId) (f : ListenEntry → ListenEntry) (s : State) : (modListen i f s).accessCount = s.accessCount := rfl
@[simp] theorem detailSelect_modListen (i : ListenId) (f : ListenEntry → ListenEntry) (s : State) : (modListen i f s).detailSelect = s.detailSelect := rfl
@[simp] theorem readData_modListen (i : ListenId) (f : ListenEntry → ListenEntry) (s : State) : (modListen i f s).readData = s.readData := rfl
@[simp] theorem reports_modListen (i : ListenId) (f : ListenEntry → ListenEntry) (s : State) : (modListen i f s).reports = s.reports := rfl
@[simp] theorem notices_modListen (i : ListenId) (f : ListenEntry → ListenEntry) (s : State) : (modListen i f s).notices = s.notices := rfl
@[simp] theorem freeIndex_modListen (i : ListenId) (f : ListenEntry → ListenEntry) (s : State) : (modListen i f s).freeIndex = s.freeIndex := rfl
@[simp] theorem pending_modListen (i : ListenId) (f : ListenEntry → ListenEntry) (s : State) : (modListen i f s).pending = s.pending := rfl
@[simp] theorem entry_modListen (i : ListenId) (f : ListenEntry → ListenEntry) (j : EntryId) (s : State) : entry j (modListen i f s) = entry j s := rfl
@[simp] theorem group_modListen (i : ListenId) (f : ListenEntry → ListenEntry) (j : GroupId) (s : State) : group j (modListen i f s) = group j s := rfl
@[simp] theorem queue_modListen (i : ListenId) (f : ListenEntry → ListenEntry) (j : SegId) (s : State) : queue j (modListen i f s) = queue j s := rfl
@[simp] theorem ctl_modListen (i : ListenId) (f : ListenEntry → ListenEntry) (j : SegId) (s : State) : ctl j (modListen i f s) = ctl j s := rfl
@[simp] theorem slot_modListen (i : ListenId) (f : ListenEntry → ListenEntry) (j : SlotId) (s : State) : slot j (modListen i f s) = slot j s := rfl
@[simp] theorem reception_modListen (i : ListenId) (f : ListenEntry → ListenEntry) (j : SegId) (s : State) : reception j (modListen i f s) = reception j s := rfl

/-! ## setReception -/

@[simp] theorem inReset_setReception (q : SegId) (x : Option Reception) (s : State) : (setReception q x s).inReset = s.inReset := rfl
@[simp] theorem timebase_setReception (q : SegId) (x : Option Reception) (s : State) : (setReception q x s).timebase = s.timebase := rfl
@[simp] theorem entries_setReception (q : SegId) (x : Option Reception) (s : State) : (setReception q x s).entries = s.entries := rfl
@[simp] theorem groups_setReception (q : SegId) (x : Option Reception) (s : State) : (setReception q x s).groups = s.groups := rfl
@[simp] theorem queues_setReception (q : SegId) (x : Option Reception) (s : State) : (setReception q x s).queues = s.queues := rfl
@[simp] theorem ctls_setReception (q : SegId) (x : Option Reception) (s : State) : (setReception q x s).ctls = s.ctls := rfl
@[simp] theorem slots_setReception (q : SegId) (x : Option Reception) (s : State) : (setReception q x s).slots = s.slots := rfl
@[simp] theorem listen_setReception (q : SegId) (x : Option Reception) (s : State) : (setReception q x s).listen = s.listen := rfl
@[simp] theorem ring_setReception (q : SegId) (x : Option Reception) (s : State) : (setReception q x s).ring = s.ring := rfl
@[simp] theorem nextSequence_setReception (q : SegId) (x : Option Reception) (s : State) : (setReception q x s).nextSequence = s.nextSequence := rfl
@[simp] theorem lostCount_setReception (q : SegId) (x : Option Reception) (s : State) : (setReception q x s).lostCount = s.lostCount := rfl
@[simp] theorem flags_setReception (q : SegId) (x : Option Reception) (s : State) : (setReception q x s).flags = s.flags := rfl
@[simp] theorem enables_setReception (q : SegId) (x : Option Reception) (s : State) : (setReception q x s).enables = s.enables := rfl
@[simp] theorem command_setReception (q : SegId) (x : Option Reception) (s : State) : (setReception q x s).command = s.command := rfl
@[simp] theorem result_setReception (q : SegId) (x : Option Reception) (s : State) : (setReception q x s).result = s.result := rfl
@[simp] theorem resetting_setReception (q : SegId) (x : Option Reception) (s : State) : (setReception q x s).resetting = s.resetting := rfl
@[simp] theorem undelivered_setReception (q : SegId) (x : Option Reception) (s : State) : (setReception q x s).undelivered = s.undelivered := rfl
@[simp] theorem accessRecord_setReception (q : SegId) (x : Option Reception) (s : State) : (setReception q x s).accessRecord = s.accessRecord := rfl
@[simp] theorem accessCount_setReception (q : SegId) (x : Option Reception) (s : State) : (setReception q x s).accessCount = s.accessCount := rfl
@[simp] theorem detailSelect_setReception (q : SegId) (x : Option Reception) (s : State) : (setReception q x s).detailSelect = s.detailSelect := rfl
@[simp] theorem readData_setReception (q : SegId) (x : Option Reception) (s : State) : (setReception q x s).readData = s.readData := rfl
@[simp] theorem reports_setReception (q : SegId) (x : Option Reception) (s : State) : (setReception q x s).reports = s.reports := rfl
@[simp] theorem notices_setReception (q : SegId) (x : Option Reception) (s : State) : (setReception q x s).notices = s.notices := rfl
@[simp] theorem freeIndex_setReception (q : SegId) (x : Option Reception) (s : State) : (setReception q x s).freeIndex = s.freeIndex := rfl
@[simp] theorem pending_setReception (q : SegId) (x : Option Reception) (s : State) : (setReception q x s).pending = s.pending := rfl
@[simp] theorem entry_setReception (q : SegId) (x : Option Reception) (j : EntryId) (s : State) : entry j (setReception q x s) = entry j s := rfl
@[simp] theorem group_setReception (q : SegId) (x : Option Reception) (j : GroupId) (s : State) : group j (setReception q x s) = group j s := rfl
@[simp] theorem queue_setReception (q : SegId) (x : Option Reception) (j : SegId) (s : State) : queue j (setReception q x s) = queue j s := rfl
@[simp] theorem ctl_setReception (q : SegId) (x : Option Reception) (j : SegId) (s : State) : ctl j (setReception q x s) = ctl j s := rfl
@[simp] theorem slot_setReception (q : SegId) (x : Option Reception) (j : SlotId) (s : State) : slot j (setReception q x s) = slot j s := rfl
@[simp] theorem listenEntry_setReception (q : SegId) (x : Option Reception) (j : ListenId) (s : State) : listenEntry j (setReception q x s) = listenEntry j s := rfl

/-! ## send -/

@[simp] theorem inReset_send (r : Report) (s : State) : (send r s).inReset = s.inReset := rfl
@[simp] theorem timebase_send (r : Report) (s : State) : (send r s).timebase = s.timebase := rfl
@[simp] theorem entries_send (r : Report) (s : State) : (send r s).entries = s.entries := rfl
@[simp] theorem groups_send (r : Report) (s : State) : (send r s).groups = s.groups := rfl
@[simp] theorem queues_send (r : Report) (s : State) : (send r s).queues = s.queues := rfl
@[simp] theorem ctls_send (r : Report) (s : State) : (send r s).ctls = s.ctls := rfl
@[simp] theorem slots_send (r : Report) (s : State) : (send r s).slots = s.slots := rfl
@[simp] theorem listen_send (r : Report) (s : State) : (send r s).listen = s.listen := rfl
@[simp] theorem receptions_send (r : Report) (s : State) : (send r s).receptions = s.receptions := rfl
@[simp] theorem ring_send (r : Report) (s : State) : (send r s).ring = s.ring := rfl
@[simp] theorem nextSequence_send (r : Report) (s : State) : (send r s).nextSequence = s.nextSequence := rfl
@[simp] theorem lostCount_send (r : Report) (s : State) : (send r s).lostCount = s.lostCount := rfl
@[simp] theorem flags_send (r : Report) (s : State) : (send r s).flags = s.flags := rfl
@[simp] theorem enables_send (r : Report) (s : State) : (send r s).enables = s.enables := rfl
@[simp] theorem command_send (r : Report) (s : State) : (send r s).command = s.command := rfl
@[simp] theorem result_send (r : Report) (s : State) : (send r s).result = s.result := rfl
@[simp] theorem resetting_send (r : Report) (s : State) : (send r s).resetting = s.resetting := rfl
@[simp] theorem undelivered_send (r : Report) (s : State) : (send r s).undelivered = s.undelivered := rfl
@[simp] theorem accessRecord_send (r : Report) (s : State) : (send r s).accessRecord = s.accessRecord := rfl
@[simp] theorem accessCount_send (r : Report) (s : State) : (send r s).accessCount = s.accessCount := rfl
@[simp] theorem detailSelect_send (r : Report) (s : State) : (send r s).detailSelect = s.detailSelect := rfl
@[simp] theorem readData_send (r : Report) (s : State) : (send r s).readData = s.readData := rfl
@[simp] theorem notices_send (r : Report) (s : State) : (send r s).notices = s.notices := rfl
@[simp] theorem freeIndex_send (r : Report) (s : State) : (send r s).freeIndex = s.freeIndex := rfl
@[simp] theorem pending_send (r : Report) (s : State) : (send r s).pending = s.pending := rfl
@[simp] theorem entry_send (r : Report) (j : EntryId) (s : State) : entry j (send r s) = entry j s := rfl
@[simp] theorem group_send (r : Report) (j : GroupId) (s : State) : group j (send r s) = group j s := rfl
@[simp] theorem queue_send (r : Report) (j : SegId) (s : State) : queue j (send r s) = queue j s := rfl
@[simp] theorem ctl_send (r : Report) (j : SegId) (s : State) : ctl j (send r s) = ctl j s := rfl
@[simp] theorem slot_send (r : Report) (j : SlotId) (s : State) : slot j (send r s) = slot j s := rfl
@[simp] theorem listenEntry_send (r : Report) (j : ListenId) (s : State) : listenEntry j (send r s) = listenEntry j s := rfl
@[simp] theorem reception_send (r : Report) (j : SegId) (s : State) : reception j (send r s) = reception j s := rfl

/-! ## raise -/

@[simp] theorem inReset_raise (v : Event) (s : State) : (raise v s).inReset = s.inReset := rfl
@[simp] theorem timebase_raise (v : Event) (s : State) : (raise v s).timebase = s.timebase := rfl
@[simp] theorem entries_raise (v : Event) (s : State) : (raise v s).entries = s.entries := rfl
@[simp] theorem groups_raise (v : Event) (s : State) : (raise v s).groups = s.groups := rfl
@[simp] theorem queues_raise (v : Event) (s : State) : (raise v s).queues = s.queues := rfl
@[simp] theorem ctls_raise (v : Event) (s : State) : (raise v s).ctls = s.ctls := rfl
@[simp] theorem slots_raise (v : Event) (s : State) : (raise v s).slots = s.slots := rfl
@[simp] theorem listen_raise (v : Event) (s : State) : (raise v s).listen = s.listen := rfl
@[simp] theorem receptions_raise (v : Event) (s : State) : (raise v s).receptions = s.receptions := rfl
@[simp] theorem ring_raise (v : Event) (s : State) : (raise v s).ring = s.ring := rfl
@[simp] theorem nextSequence_raise (v : Event) (s : State) : (raise v s).nextSequence = s.nextSequence := rfl
@[simp] theorem lostCount_raise (v : Event) (s : State) : (raise v s).lostCount = s.lostCount := rfl
@[simp] theorem enables_raise (v : Event) (s : State) : (raise v s).enables = s.enables := rfl
@[simp] theorem command_raise (v : Event) (s : State) : (raise v s).command = s.command := rfl
@[simp] theorem result_raise (v : Event) (s : State) : (raise v s).result = s.result := rfl
@[simp] theorem resetting_raise (v : Event) (s : State) : (raise v s).resetting = s.resetting := rfl
@[simp] theorem undelivered_raise (v : Event) (s : State) : (raise v s).undelivered = s.undelivered := rfl
@[simp] theorem accessRecord_raise (v : Event) (s : State) : (raise v s).accessRecord = s.accessRecord := rfl
@[simp] theorem accessCount_raise (v : Event) (s : State) : (raise v s).accessCount = s.accessCount := rfl
@[simp] theorem detailSelect_raise (v : Event) (s : State) : (raise v s).detailSelect = s.detailSelect := rfl
@[simp] theorem readData_raise (v : Event) (s : State) : (raise v s).readData = s.readData := rfl
@[simp] theorem reports_raise (v : Event) (s : State) : (raise v s).reports = s.reports := rfl
@[simp] theorem notices_raise (v : Event) (s : State) : (raise v s).notices = s.notices := rfl
@[simp] theorem freeIndex_raise (v : Event) (s : State) : (raise v s).freeIndex = s.freeIndex := rfl
@[simp] theorem pending_raise (v : Event) (s : State) : (raise v s).pending = s.pending := rfl
@[simp] theorem entry_raise (v : Event) (j : EntryId) (s : State) : entry j (raise v s) = entry j s := rfl
@[simp] theorem group_raise (v : Event) (j : GroupId) (s : State) : group j (raise v s) = group j s := rfl
@[simp] theorem queue_raise (v : Event) (j : SegId) (s : State) : queue j (raise v s) = queue j s := rfl
@[simp] theorem ctl_raise (v : Event) (j : SegId) (s : State) : ctl j (raise v s) = ctl j s := rfl
@[simp] theorem slot_raise (v : Event) (j : SlotId) (s : State) : slot j (raise v s) = slot j s := rfl
@[simp] theorem listenEntry_raise (v : Event) (j : ListenId) (s : State) : listenEntry j (raise v s) = listenEntry j s := rfl
@[simp] theorem reception_raise (v : Event) (j : SegId) (s : State) : reception j (raise v s) = reception j s := rfl

/-! ## Reading back the record replaced -/

@[simp] theorem entry_modEntry_same (e : EntryId) (f : Entry → Entry) (s : State) : entry e (modEntry e f s) = f (entry e s) := by simp [entry, modEntry]
theorem entry_modEntry_ne (e : EntryId) (f : Entry → Entry) {j : EntryId} (s : State) (h : j ≠ e) : entry j (modEntry e f s) = entry j s := by
  simp [entry, modEntry, getAt_putAt_ne _ _ h]
@[simp] theorem group_modGroup_same (g : GroupId) (f : Group → Group) (s : State) : group g (modGroup g f s) = f (group g s) := by simp [group, modGroup]
theorem group_modGroup_ne (g : GroupId) (f : Group → Group) {j : GroupId} (s : State) (h : j ≠ g) : group j (modGroup g f s) = group j s := by
  simp [group, modGroup, getAt_putAt_ne _ _ h]
@[simp] theorem queue_setQueue_same (q : SegId) (x : SegQueue) (s : State) : queue q (setQueue q x s) = x := by simp [queue, setQueue]
theorem queue_setQueue_ne (q : SegId) (x : SegQueue) {j : SegId} (s : State) (h : j ≠ q) : queue j (setQueue q x s) = queue j s := by
  simp [queue, setQueue, getAt_putAt_ne _ _ h]
@[simp] theorem ctl_modCtl_same (q : SegId) (f : Controller → Controller) (s : State) : ctl q (modCtl q f s) = f (ctl q s) := by simp [ctl, modCtl]
theorem ctl_modCtl_ne (q : SegId) (f : Controller → Controller) {j : SegId} (s : State) (h : j ≠ q) : ctl j (modCtl q f s) = ctl j s := by
  simp [ctl, modCtl, getAt_putAt_ne _ _ h]
@[simp] theorem slot_modSlot_same (k : SlotId) (f : Slot → Slot) (s : State) : slot k (modSlot k f s) = f (slot k s) := by simp [slot, modSlot]
theorem slot_modSlot_ne (k : SlotId) (f : Slot → Slot) {j : SlotId} (s : State) (h : j ≠ k) : slot j (modSlot k f s) = slot j s := by
  simp [slot, modSlot, getAt_putAt_ne _ _ h]
@[simp] theorem listenEntry_modListen_same (i : ListenId) (f : ListenEntry → ListenEntry) (s : State) : listenEntry i (modListen i f s) = f (listenEntry i s) := by simp [listenEntry, modListen]
theorem listenEntry_modListen_ne (i : ListenId) (f : ListenEntry → ListenEntry) {j : ListenId} (s : State) (h : j ≠ i) : listenEntry j (modListen i f s) = listenEntry j s := by
  simp [listenEntry, modListen, getAt_putAt_ne _ _ h]
@[simp] theorem reception_setReception_same (q : SegId) (x : Option Reception) (s : State) : reception q (setReception q x s) = x := by simp [reception, setReception]
theorem reception_setReception_ne (q : SegId) (x : Option Reception) {j : SegId} (s : State) (h : j ≠ q) : reception j (setReception q x s) = reception j s := by
  simp [reception, setReception, getAt_putAt_ne _ _ h]

/-- A controller put back in its place changes nothing. -/
theorem modCtl_id (q : SegId) (s : State) : modCtl q (fun _ => ctl q s) s = s := by
  have h : putAt s.ctls q (ctl q s) = s.ctls := getAt_ext fun i => by
    by_cases hi : i = q
    · subst hi; exact getAt_putAt_same _ _ _
    · exact getAt_putAt_ne _ _ hi
  unfold modCtl
  rw [h]

/-- Two changes of one controller are one. -/
theorem modCtl_modCtl (q : SegId) (f g : Controller → Controller) (s : State) :
    modCtl q f (modCtl q g s) = modCtl q (fun _ => f (g (ctl q s))) s := by
  have h : putAt (putAt s.ctls q (g (ctl q s))) q (f (g (ctl q s))) = putAt s.ctls q (f (g (ctl q s))) :=
    getAt_ext fun i => by
      by_cases hi : i = q
      · subst hi; simp
      · simp [getAt_putAt_ne _ _ hi]
  have hc : ctl q (modCtl q g s) = g (ctl q s) := ctl_modCtl_same _ _ _
  unfold modCtl at hc ⊢
  rw [hc]
  simp only [h]

/-- The flags after a set request (R152). -/
theorem flags_raise (v : Event) (s : State) : (raise v s).flags = s.flags ||| (1#13 <<< v.bit) := rfl

/-- The reports after one is sent. -/
theorem reports_send (r : Report) (s : State) : (send r s).reports = s.reports ++ [r] := rfl

end Sys2Proof.Machine
end

