-- ==== Sys2Proof/Laws/Queue.lean ====
section
/-! SUPPORT. What each request at a Segment Queue can do: the answer, the queue after it, and the bounds it keeps. -/

namespace Sys2Proof.Machine

open Sys2Proof.Safety

/-! ## A soft reset between a controller and its queue (R149) -/

/-- Which queues a soft reset has still to reach is read from RESETTING and the deliveries left. -/
theorem awaits_congr {s t : State} (hr : t.resetting = s.resetting) (hu : t.undelivered = s.undelivered) (q : SegId) :
    awaitsQueue q t = awaitsQueue q s := by
  unfold awaitsQueue resetReached deliveriesLeft
  rw [hr, hu]

/-! ## Finding a job -/

theorem splitAtFirst_none {α : Type} {p : α → Bool} :
    ∀ {l : List α}, splitAtFirst p l = none → ∀ x ∈ l, p x = false
  | [], _, x, hx => by cases hx
  | y :: ys, h, x, hx => by
    unfold splitAtFirst at h
    by_cases hy : p y = true
    · simp [hy] at h
    · simp only [hy, Bool.false_eq_true, if_false, Option.map_eq_none_iff] at h
      rcases List.mem_cons.1 hx with rfl | hx
      · simpa using hy
      · exact splitAtFirst_none h x hx

theorem splitAtFirst_some {α : Type} {p : α → Bool} :
    ∀ {l b a : List α} {x : α}, splitAtFirst p l = some (b, x, a) →
      l = b ++ x :: a ∧ p x = true ∧ ∀ y ∈ b, p y = false
  | [], b, a, x, h => by simp [splitAtFirst] at h
  | y :: ys, b, a, x, h => by
    unfold splitAtFirst at h
    by_cases hy : p y = true
    · simp only [hy, if_true, Option.some.injEq, Prod.mk.injEq] at h
      obtain ⟨rfl, rfl, rfl⟩ := h
      exact ⟨rfl, hy, fun z hz => by cases hz⟩
    · simp only [hy, Bool.false_eq_true, if_false, Option.map_eq_some_iff] at h
      obtain ⟨⟨b', x', a'⟩, h1, h2⟩ := h
      simp only [Prod.mk.injEq] at h2
      obtain ⟨rfl, rfl, rfl⟩ := h2
      obtain ⟨e, hx, hb⟩ := splitAtFirst_some h1
      refine ⟨by rw [e]; rfl, hx, fun z hz => ?_⟩
      rcases List.mem_cons.1 hz with rfl | hz
      · simpa using hy
      · exact hb z hz

/-! ## Admission (R63) -/

/-- A refused admission changes nothing; the answer is that of Table 4.3. -/
theorem admit_refused {seg : SegId} {j : Job} {s : State} (h : admissionAnswer seg j.cls s ≠ .admitted) :
    requestAdmission seg j s = (s, admissionAnswer seg j.cls s) := by
  unfold requestAdmission
  cases h' : admissionAnswer seg j.cls s <;> simp_all

theorem admit_answer (seg : SegId) (j : Job) (s : State) : (requestAdmission seg j s).2 = admissionAnswer seg j.cls s := by
  unfold requestAdmission
  cases admissionAnswer seg j.cls s <;> rfl

/-- An admitted job joins its queue; every other queue is as it was. -/
theorem admit_queues {seg : SegId} {j : Job} {s : State} (h : admissionAnswer seg j.cls s = .admitted) :
    (requestAdmission seg j s).1.queues = putAt s.queues seg (enqueue j (queue seg s)) := by
  unfold requestAdmission
  rw [h]
  dsimp only
  split <;> rfl

/-- An admission leaves everything but the queue and the busy wait. -/
theorem admit_frame (seg : SegId) (j : Job) (s : State) :
    (requestAdmission seg j s).1 = { s with queues := (requestAdmission seg j s).1.queues, ctls := (requestAdmission seg j s).1.ctls } := by
  unfold requestAdmission
  cases admissionAnswer seg j.cls s
  · dsimp only; split <;> rfl
  · rfl
  · rfl

/-- Admission changes no controller but for its busy wait. -/
theorem admit_ctl (seg : SegId) (j : Job) (s : State) (q : SegId) :
    ∃ w, ctl q (requestAdmission seg j s).1 = { ctl q s with busySince := w } := by
  unfold requestAdmission
  cases admissionAnswer seg j.cls s
  · dsimp only
    split
    · by_cases hq : q = seg
      · subst hq; exact ⟨_, by rw [beginBusyWait, ctl_modCtl_same]; rfl⟩
      · exact ⟨(ctl q s).busySince, by rw [beginBusyWait, ctl_modCtl_ne _ _ _ hq]; rfl⟩
    · exact ⟨(ctl q s).busySince, rfl⟩
  · exact ⟨(ctl q s).busySince, rfl⟩
  · exact ⟨(ctl q s).busySince, rfl⟩

theorem not_refusesJobs_of_admitted {seg : SegId} {cls : JobClass} {s : State}
    (h : admissionAnswer seg cls s = .admitted) : refusesJobs (ctl seg s).state = false := by
  unfold admissionAnswer at h
  cases h' : refusesJobs (ctl seg s).state
  · rfl
  · simp [h'] at h

/-- The limits of R63 keep the bounds of R60. -/
theorem bounded_enqueue {seg : SegId} {j : Job} {s : State} (h : admissionAnswer seg j.cls s = .admitted)
    (hb : QueueBounded (queue seg s)) : QueueBounded (enqueue j (queue seg s)) := by
  obtain ⟨h1, h2, h3⟩ := hb
  unfold admissionAnswer at h
  unfold QueueBounded enqueue
  rcases hj : j.cls with _ | _ <;> rw [hj] at h <;>
    simp only [occupancy, Config.queueCapacity, Config.routineLimit, List.length_append, List.length_singleton] at * <;>
    refine ⟨?_, ?_, h3⟩ <;> split_ifs at h <;> simp_all <;> omega

/-! ## Promotion and removal (R64, R65) -/

theorem promote_frame (seg : SegId) (e : EntryId) (s : State) :
    (promote seg e s).1 = { s with queues := (promote seg e s).1.queues } := by
  unfold promote
  dsimp only
  split <;> rfl

/-- Promotion leaves the other queues; it keeps the occupancy and does not raise the ROUTINE count. -/
theorem promote_queue (seg : SegId) (e : EntryId) (s : State) (q : SegId) :
    occupancy (queue q (promote seg e s).1) = occupancy (queue q s)
      ∧ (queue q (promote seg e s).1).routine.length ≤ (queue q s).routine.length
      ∧ (queue q (promote seg e s).1).streak = (queue q s).streak := by
  unfold promote
  dsimp only
  split
  · rename_i b j a h
    obtain ⟨hl, -, -⟩ := splitAtFirst_some h
    by_cases hq : q = seg
    · subst hq
      simp only [queue_setQueue_same, occupancy]
      rw [hl]
      simp
      omega
    · rw [queue_setQueue_ne _ _ _ hq]; exact ⟨rfl, le_refl _, rfl⟩
  · exact ⟨rfl, le_refl _, rfl⟩

/-- A queue without one of its jobs is shorter and keeps its streak (R65). -/
theorem withoutJob_some {r : JobRef} {q q' : SegQueue} (h : withoutJob r q = some q') :
    occupancy q' + 1 = occupancy q ∧ q'.routine.length ≤ q.routine.length ∧ q'.streak = q.streak
      ∧ q'.urgent.length ≤ q.urgent.length := by
  unfold withoutJob at h
  split at h
  · rename_i b j a hs
    obtain ⟨hl, -, -⟩ := splitAtFirst_some hs
    cases h
    simp only [occupancy]
    rw [hl]
    simp
    omega
  · split at h
    · rename_i b j a hs
      obtain ⟨hl, -, -⟩ := splitAtFirst_some hs
      cases h
      simp only [occupancy]
      rw [hl]
      simp
      omega
    · cases h

theorem removeJob_frame (seg : SegId) (r : JobRef) (s : State) :
    (removeJob seg r s).1 = { s with queues := (removeJob seg r s).1.queues, ctls := (removeJob seg r s).1.ctls } := by
  unfold removeJob
  split
  · dsimp only; split <;> rfl
  · rfl

theorem removeJob_ctl (seg : SegId) (r : JobRef) (s : State) (q : SegId) :
    ∃ w, ctl q (removeJob seg r s).1 = { ctl q s with busySince := w } := by
  unfold removeJob
  split
  · dsimp only
    split
    · by_cases hq : q = seg
      · subst hq; exact ⟨_, by rw [ctl_modCtl_same]; rfl⟩
      · exact ⟨(ctl q s).busySince, by rw [ctl_modCtl_ne _ _ _ hq]; rfl⟩
    · exact ⟨(ctl q s).busySince, rfl⟩
  · exact ⟨(ctl q s).busySince, rfl⟩

theorem removeJob_queue (seg : SegId) (r : JobRef) (s : State) (q : SegId) :
    occupancy (queue q (removeJob seg r s).1) ≤ occupancy (queue q s)
      ∧ (queue q (removeJob seg r s).1).routine.length ≤ (queue q s).routine.length
      ∧ (queue q (removeJob seg r s).1).streak = (queue q s).streak
      ∧ (queue q (removeJob seg r s).1).urgent.length ≤ (queue q s).urgent.length := by
  unfold removeJob
  split
  · rename_i q' h
    obtain ⟨h1, h2, h3, h4⟩ := withoutJob_some h
    have key : queue q (if occupancy q' = 0 ∧ (ctl seg s).active = none then
        modCtl seg (fun c => { c with busySince := none }) (setQueue seg q' s) else setQueue seg q' s)
        = queue q (setQueue seg q' s) := by split <;> rfl
    dsimp only
    rw [key]
    by_cases hq : q = seg
    · subst hq
      rw [queue_setQueue_same]
      exact ⟨by omega, h2, h3, h4⟩
    · rw [queue_setQueue_ne _ _ _ hq]; exact ⟨le_refl _, le_refl _, rfl, le_refl _⟩
  · exact ⟨le_refl _, le_refl _, rfl, le_refl _⟩

/-! ## Selection (R69, R70) -/

/-- The arbiter keeps the bounds and never raises a count. -/
theorem arbiter_bounded {q q' : SegQueue} {j : Job} (h : arbiter q = some (j, q')) (hb : QueueBounded q) :
    QueueBounded q' := by
  obtain ⟨u, r, k⟩ := q
  unfold arbiter at h
  unfold QueueBounded occupancy at *
  rcases u with _ | ⟨u, us⟩ <;> rcases r with _ | ⟨r, rs⟩ <;> simp only at h
  · cases h
  · cases h; simp_all; omega
  · cases h; simp_all; omega
  · split at h <;> cases h <;> simp_all [Config.guardLimit] <;> omega

/-! ## Flush (R66) -/

/-- What reports of a flush may change: slots, reports in flight, flags. -/
def FlushFrame (s t : State) : Prop := ∃ sl rp fl, t = { s with slots := sl, reports := rp, flags := fl }

theorem FlushFrame.trans {s t u : State} (h : FlushFrame s t) (k : FlushFrame t u) : FlushFrame s u := by
  obtain ⟨_, _, _, rfl⟩ := h
  obtain ⟨_, _, _, rfl⟩ := k
  exact ⟨_, _, _, rfl⟩

theorem reportFlushed_frame (seg : SegId) (s : State) (j : Job) : FlushFrame s (reportFlushed seg s j) := by
  unfold reportFlushed deliver
  split <;> exact ⟨_, _, _, rfl⟩

theorem foldl_reportFlushed_frame (seg : SegId) (l : List Job) (s : State) :
    FlushFrame s (l.foldl (reportFlushed seg) s) := by
  induction l generalizing s with
  | nil => exact ⟨_, _, _, rfl⟩
  | cons j l ih => exact (reportFlushed_frame seg s j).trans (ih _)

/-- A flush empties its queue and leaves everything but slots, reports and flags (R66). -/
theorem flush_frame (seg : SegId) (s : State) : FlushFrame (setQueue seg SegQueue.reset s) (flush seg s) :=
  foldl_reportFlushed_frame _ _ _

@[simp] theorem queue_flush_same (seg : SegId) (s : State) : queue seg (flush seg s) = SegQueue.reset := by
  obtain ⟨_, _, _, h⟩ := flush_frame seg s
  rw [h]
  exact queue_setQueue_same seg SegQueue.reset s

theorem queue_flush_ne {seg q : SegId} (s : State) (h : q ≠ seg) : queue q (flush seg s) = queue q s := by
  obtain ⟨_, _, _, e⟩ := flush_frame seg s
  rw [e]
  exact queue_setQueue_ne seg SegQueue.reset s h

@[simp] theorem ctl_flush (seg q : SegId) (s : State) : ctl q (flush seg s) = ctl q s := by
  obtain ⟨_, _, _, h⟩ := flush_frame seg s
  rw [h]
  rfl

@[simp] theorem resetting_flush (seg : SegId) (s : State) : (flush seg s).resetting = s.resetting := by
  obtain ⟨_, _, _, h⟩ := flush_frame seg s
  rw [h]
  rfl

end Sys2Proof.Machine
end

