-- ==== Sys2Proof/Laws/Control.lean ====
section
/-! SUPPORT. What the Segment Controllers' shared operations can change, and on which segment; the bounds of queues and ring
they keep; and what a controller state allows after each. -/

namespace Sys2Proof.Machine

open Sys2Proof.Safety

/-! ## Reservations (R135) -/

theorem reservedCount_congr {s t : State} (h : t.receptions = s.receptions) : reservedCount t = reservedCount s := by
  unfold reservedCount reception
  rw [h]

/-- Whether a segment's reception holds a reservation. -/
def holdsPlace (x : Option Reception) : Bool :=
  match x with
  | some r => r.reserved
  | none => false

theorem reservedCount_eq (s : State) :
    reservedCount s = ((indices 8).map fun q => (holdsPlace (reception q s)).toNat).sum := by
  unfold reservedCount
  induction indices 8 with
  | nil => rfl
  | cons q l ih =>
    rw [List.map_cons, List.sum_cons, ← ih, List.filter_cons]
    cases reception q s with
    | none => simp [holdsPlace]
    | some r => cases h : r.reserved <;> (simp [holdsPlace, h]; try omega)

/-- One segment's reception is replaced: the count loses its place and gains the new one's. -/
theorem reservedCount_setReception (q : SegId) (x : Option Reception) (s : State) :
    reservedCount (setReception q x s) + (holdsPlace (reception q s)).toNat
      = reservedCount s + (holdsPlace x).toNat := by
  rw [reservedCount_eq, reservedCount_eq]
  have hi : indices 8 = [0, 1, 2, 3, 4, 5, 6, 7] := by decide
  rw [hi]
  have hne : ∀ j, j ≠ q → reception j (setReception q x s) = reception j s := fun j hj =>
    reception_setReception_ne q x s hj
  have hs : reception q (setReception q x s) = x := reception_setReception_same q x s
  simp only [List.map_cons, List.map_nil, List.sum_cons, List.sum_nil]
  generalize setReception q x s = t at *
  fin_cases q <;>
    simp only [Fin.zero_eta, Fin.mk_one, Fin.reduceFinMk] at hne hs ⊢ <;> rw [hs]
  · rw [hne 1 (by decide), hne 2 (by decide), hne 3 (by decide), hne 4 (by decide), hne 5 (by decide),
      hne 6 (by decide), hne 7 (by decide)]
    omega
  · rw [hne 0 (by decide), hne 2 (by decide), hne 3 (by decide), hne 4 (by decide), hne 5 (by decide),
      hne 6 (by decide), hne 7 (by decide)]
    omega
  · rw [hne 0 (by decide), hne 1 (by decide), hne 3 (by decide), hne 4 (by decide), hne 5 (by decide),
      hne 6 (by decide), hne 7 (by decide)]
    omega
  · rw [hne 0 (by decide), hne 1 (by decide), hne 2 (by decide), hne 4 (by decide), hne 5 (by decide),
      hne 6 (by decide), hne 7 (by decide)]
    omega
  · rw [hne 0 (by decide), hne 1 (by decide), hne 2 (by decide), hne 3 (by decide), hne 5 (by decide),
      hne 6 (by decide), hne 7 (by decide)]
    omega
  · rw [hne 0 (by decide), hne 1 (by decide), hne 2 (by decide), hne 3 (by decide), hne 4 (by decide),
      hne 6 (by decide), hne 7 (by decide)]
    omega
  · rw [hne 0 (by decide), hne 1 (by decide), hne 2 (by decide), hne 3 (by decide), hne 4 (by decide),
      hne 5 (by decide), hne 7 (by decide)]
    omega
  · rw [hne 0 (by decide), hne 1 (by decide), hne 2 (by decide), hne 3 (by decide), hne 4 (by decide),
      hne 5 (by decide), hne 6 (by decide)]
    omega

/-! ## Steps of one segment -/

/-- Everything an operation of the controller of one segment can do. -/
structure LineStep (seg : SegId) (s t : State) : Prop where
  frame : ∃ qs cs sl rc rp fl rs,
    t = { s with queues := qs, ctls := cs, slots := sl, receptions := rc, reports := rp, flags := fl, resetting := rs }
  reset : t.resetting = s.resetting ∨ s.undelivered = 0
  bounded : QueuesBounded s → QueuesBounded t
  ring : RingBounded s → RingBounded t
  ctlNe : ∀ q, q ≠ seg → ctl q t = ctl q s
  queueNe : ∀ q, q ≠ seg → queue q t = queue q s

namespace LineStep

theorem refl (seg : SegId) (s : State) : LineStep seg s s :=
  ⟨⟨_, _, _, _, _, _, _, rfl⟩, .inl rfl, id, id, fun _ _ => rfl, fun _ _ => rfl⟩

theorem trans {seg : SegId} {s t u : State} (h : LineStep seg s t) (k : LineStep seg t u) : LineStep seg s u := by
  obtain ⟨h1, h0, h2, h3, h4, h5⟩ := h
  obtain ⟨k1, k0, k2, k3, k4, k5⟩ := k
  refine ⟨?_, ?_, k2 ∘ h2, k3 ∘ h3, fun q hq => (k4 q hq).trans (h4 q hq), fun q hq => (k5 q hq).trans (h5 q hq)⟩
  · obtain ⟨_, _, _, _, _, _, _, rfl⟩ := h1
    obtain ⟨_, _, _, _, _, _, _, rfl⟩ := k1
    exact ⟨_, _, _, _, _, _, _, rfl⟩
  · obtain ⟨_, _, _, _, _, _, _, rfl⟩ := h1
    rcases k0 with k0 | k0
    · rcases h0 with h0 | h0
      · exact .inl (k0.trans h0)
      · exact .inr h0
    · exact .inr k0

/-- A step of one segment leaves which block a soft reset reaches next. -/
theorem undelivered {seg : SegId} {s t : State} (h : LineStep seg s t) : t.undelivered = s.undelivered := by
  obtain ⟨_, _, _, _, _, _, _, rfl⟩ := h.frame
  rfl

/-- It leaves which queues a soft reset has still to empty. -/
theorem awaits {seg : SegId} {s t : State} (h : LineStep seg s t) (q : SegId) : awaitsQueue q t = awaitsQueue q s := by
  unfold awaitsQueue resetReached deliveriesLeft
  rw [h.undelivered]
  rcases h.reset with e | e
  · rw [e]
  · rw [e]
    have hd : resetOrder.drop (20 - (0 : Fin 21).val) = [] := by decide
    rw [hd]
    cases t.resetting <;> cases s.resetting <;> rfl

/-- A step that leaves queues, ring, receptions and RESETTING. -/
theorem of_same {seg : SegId} {s t : State}
    (hf : ∃ cs sl rp fl, t = { s with ctls := cs, slots := sl, reports := rp, flags := fl })
    (hc : ∀ q, q ≠ seg → ctl q t = ctl q s) : LineStep seg s t := by
  obtain ⟨_, _, _, _, rfl⟩ := hf
  exact ⟨⟨_, _, _, _, _, _, _, rfl⟩, .inl rfl, id, id, hc, fun _ _ => rfl⟩

end LineStep

open LineStep

theorem modCtl_line (seg : SegId) (f : Controller → Controller) (s : State) : LineStep seg s (modCtl seg f s) :=
  of_same ⟨_, _, _, _, rfl⟩ fun _ hq => ctl_modCtl_ne _ _ _ hq

theorem modActive_line (seg : SegId) (f : ActiveJob → ActiveJob) (s : State) : LineStep seg s (modActive seg f s) :=
  modCtl_line _ _ _

theorem send_line (seg : SegId) (r : Report) (s : State) : LineStep seg s (send r s) :=
  of_same ⟨_, _, _, _, rfl⟩ fun _ _ => rfl

theorem raise_line (seg : SegId) (v : Event) (s : State) : LineStep seg s (raise v s) :=
  of_same ⟨_, _, _, _, rfl⟩ fun _ _ => rfl

theorem modSlot_line (seg : SegId) (k : SlotId) (f : Slot → Slot) (s : State) : LineStep seg s (modSlot k f s) :=
  of_same ⟨_, _, _, _, rfl⟩ fun _ _ => rfl

theorem finishSlot_line (seg : SegId) (k : SlotId) (r : Result) (a b : BitVec 6) (u : BitVec 4) (l : List Byte)
    (s : State) : LineStep seg s (finishSlot k r a b u l s) :=
  of_same ⟨_, _, _, _, rfl⟩ fun _ _ => rfl

theorem deliver_line (seg : SegId) (c : Completion) (s : State) : LineStep seg s (deliver c s) := by
  unfold deliver
  split
  · exact finishSlot_line _ _ _ _ _ _ _ _
  all_goals exact send_line _ _ _

/-- A delivery touches slots, reports and flags only. -/
@[simp] theorem ctl_deliver (q : SegId) (c : Completion) (s : State) : ctl q (deliver c s) = ctl q s := by
  unfold deliver
  split <;> rfl

@[simp] theorem queue_deliver (q : SegId) (c : Completion) (s : State) : queue q (deliver c s) = queue q s := by
  unfold deliver
  split <;> rfl

@[simp] theorem resetting_deliver (c : Completion) (s : State) : (deliver c s).resetting = s.resetting := by
  unfold deliver
  split <;> rfl

theorem beginBusyWait_line (seg : SegId) (s : State) : LineStep seg s (beginBusyWait seg s) := modCtl_line _ _ _

theorem bounded_reset : QueueBounded SegQueue.reset := by
  unfold QueueBounded
  decide

theorem flush_line (seg : SegId) (s : State) : LineStep seg s (flush seg s) := by
  obtain ⟨_, _, _, h⟩ := flush_frame seg s
  refine ⟨⟨_, _, _, _, _, _, _, h⟩, .inl (by rw [h]; rfl), fun hb q => ?_, fun hr => ?_, fun q _ => ctl_flush _ _ _, fun q hq =>
    queue_flush_ne s hq⟩
  · by_cases hq : q = seg
    · subst hq; rw [queue_flush_same]; exact bounded_reset
    · rw [queue_flush_ne s hq]; exact hb q
  · rw [h]; exact hr

theorem ringBounded_close {q : SegId} {s : State} (h : RingBounded s) : RingBounded (setReception q none s) := by
  obtain ⟨h1, h2⟩ := h
  have hc := reservedCount_setReception q none s
  refine ⟨?_, fun j r hr => ?_⟩
  · rw [ring_setReception]
    simp only [holdsPlace, Bool.toNat_false] at hc
    omega
  · by_cases hj : j = q
    · subst hj; rw [reception_setReception_same] at hr; cases hr
    · rw [reception_setReception_ne _ _ _ hj] at hr; exact h2 j r hr

theorem cutReception_line (seg : SegId) (s : State) : LineStep seg s (cutReception seg s) :=
  ⟨⟨_, _, _, _, _, _, _, rfl⟩, .inl rfl, id, ringBounded_close, fun _ _ => rfl, fun _ _ => rfl⟩

/-! ## Completion and the end of STOPPING -/

theorem completeJob_line (seg : SegId) (o : FrameOutcome) (u : BitVec 4) (s : State) :
    LineStep seg s (completeJob seg o u s) := by
  unfold completeJob
  split
  · exact refl seg s
  · exact (deliver_line seg _ s).trans (modCtl_line seg _ _)

theorem completeAttempt_line (seg : SegId) (o : FrameOutcome) (s : State) :
    LineStep seg s (completeAttempt seg o s) := by
  unfold completeAttempt
  split
  · exact refl seg s
  · exact completeJob_line _ _ _ _

/-- After a completion the controller holds no job and is otherwise as it was, but for its early-end request. -/
theorem ctl_completeJob (seg : SegId) (o : FrameOutcome) (u : BitVec 4) (s : State) :
    ∃ b, ctl seg (completeJob seg o u s) = { ctl seg s with active := none, earlyEnd := b } := by
  unfold completeJob
  split
  · rename_i h
    refine ⟨(ctl seg s).earlyEnd, ?_⟩
    rw [← h]
  · exact ⟨none, by rw [ctl_modCtl_same, ctl_deliver]⟩

theorem ctl_completeAttempt (seg : SegId) (o : FrameOutcome) (s : State) :
    ∃ b, ctl seg (completeAttempt seg o s) = { ctl seg s with active := none, earlyEnd := b } := by
  unfold completeAttempt
  split
  · rename_i h
    refine ⟨(ctl seg s).earlyEnd, ?_⟩
    rw [← h]
  · exact ctl_completeJob _ _ _ _

@[simp] theorem queue_completeJob (seg q : SegId) (o : FrameOutcome) (u : BitVec 4) (s : State) :
    queue q (completeJob seg o u s) = queue q s := by
  unfold completeJob
  split <;> simp

@[simp] theorem queue_completeAttempt (seg q : SegId) (o : FrameOutcome) (s : State) :
    queue q (completeAttempt seg o s) = queue q s := by
  unfold completeAttempt
  split
  · rfl
  · exact queue_completeJob _ _ _ _ _

@[simp] theorem resetting_completeAttempt (seg : SegId) (o : FrameOutcome) (s : State) :
    (completeAttempt seg o s).resetting = s.resetting := by
  unfold completeAttempt completeJob
  repeat' split
  all_goals simp

theorem checkResettingEnd_line (seg : SegId) (s : State) : LineStep seg s (checkResettingEnd s) := by
  unfold checkResettingEnd
  split
  · rename_i h
    exact ⟨⟨_, _, _, _, _, _, _, rfl⟩, .inr h.2.1, id, id, fun _ _ => rfl, fun _ _ => rfl⟩
  · exact refl seg s

@[simp] theorem ctl_checkResettingEnd (q : SegId) (s : State) : ctl q (checkResettingEnd s) = ctl q s := by
  unfold checkResettingEnd
  split <;> rfl

@[simp] theorem queue_checkResettingEnd (q : SegId) (s : State) : queue q (checkResettingEnd s) = queue q s := by
  unfold checkResettingEnd
  split <;> rfl

/-- The segment's queue is empty after a soft reset has emptied it (R73), and every other queue is as it was. -/
@[simp] theorem queue_emptyQueue_same (seg : SegId) (s : State) : queue seg (emptyQueue seg s) = SegQueue.reset :=
  queue_setQueue_same seg SegQueue.reset s

theorem queue_emptyQueue_ne {seg q : SegId} (s : State) (h : q ≠ seg) : queue q (emptyQueue seg s) = queue q s :=
  queue_setQueue_ne seg SegQueue.reset s h

@[simp] theorem ctl_emptyQueue (seg q : SegId) (s : State) : ctl q (emptyQueue seg s) = ctl q s := rfl

theorem emptyQueue_line (seg : SegId) (s : State) : LineStep seg s (emptyQueue seg s) := by
  refine ⟨⟨_, _, _, _, _, _, _, rfl⟩, .inl rfl, fun hb q => ?_, id, fun _ _ => rfl, fun q hq => queue_emptyQueue_ne s hq⟩
  by_cases hq : q = seg
  · subst hq; rw [queue_emptyQueue_same]; exact bounded_reset
  · rw [queue_emptyQueue_ne s hq]; exact hb q

theorem endStopping_line (seg : SegId) (s : State) : LineStep seg s (endStopping seg s) := by
  unfold endStopping
  split
  · exact ((modCtl_line seg _ _).trans (emptyQueue_line seg _)).trans (checkResettingEnd_line seg _)
  · exact (modCtl_line seg _ _).trans (raise_line seg _ _)

@[simp] theorem ctl_endStopping (seg : SegId) (s : State) : ctl seg (endStopping seg s) = offlineCtl (ctl seg s) := by
  unfold endStopping
  split <;> simp

/-- The end of STOPPING leaves the segment's queue empty where a soft reset has reached the controller (R116), else as it was. -/
theorem queue_endStopping (seg : SegId) (s : State) :
    queue seg (endStopping seg s) = if resetReached (.controller seg) s then SegQueue.reset else queue seg s := by
  unfold endStopping
  split <;> simp

/-- An OFFLINE controller with an empty queue is as its state allows. -/
theorem controllerOk_offline {w : Bool} {c : Controller} {q : SegQueue} (hu : q.urgent = []) (hr : q.routine = []) :
    ControllerOk w (offlineCtl c) q := by
  refine ⟨fun _ => .inr ⟨hu, hr⟩, fun _ => rfl, fun h => ?_, fun h => absurd rfl h, fun h => absurd rfl h⟩
  cases h

theorem afterCompletion_line (seg : SegId) (s : State) : LineStep seg s (afterCompletion seg s) := by
  unfold afterCompletion
  split
  all_goals first | exact modCtl_line _ _ _ | exact endStopping_line _ _ | exact refl seg s

/-! ## Quarantine and results -/

theorem quarantine_line (seg : SegId) (o : FrameOutcome) (s : State) : LineStep seg s (quarantine seg o s) :=
  ((((completeAttempt_line seg o s).trans (cutReception_line seg _)).trans (flush_line seg _)).trans
    (modCtl_line seg _ _)).trans (raise_line seg _ _)

/-- A quarantined segment is as its state allows, whatever it was before (R108). -/
theorem quarantine_ok (w : Bool) (seg : SegId) (o : FrameOutcome) (s : State) :
    ControllerOk w (ctl seg (quarantine seg o s)) (queue seg (quarantine seg o s)) := by
  obtain ⟨b, hb⟩ := ctl_completeAttempt seg o s
  have hq : queue seg (quarantine seg o s) = SegQueue.reset := by
    unfold quarantine
    rw [queue_raise, queue_modCtl, queue_flush_same]
  have hc : ctl seg (quarantine seg o s)
      = { ctl seg (completeAttempt seg o s) with
          state := .quarantined, busySince := none, recovery := none, own := .quiet, bus := .notKept
          traffic := noTraffic, holdSince := none
          byteInProgress := 0#8, bitCount := 0, earlyEnd := none, addressExpected := false } := by
    unfold quarantine
    rw [ctl_raise, ctl_modCtl_same, ctl_flush]
    rfl
  rw [hq, hc, hb]
  refine ⟨fun _ => .inr ⟨rfl, rfl⟩, fun _ => rfl, fun h => ?_, fun h => absurd rfl h, fun h => absurd rfl h⟩
  cases h

/-- The state in which a job goes on after a result that did not quarantine. -/
def countedResult (seg : SegId) (r : Result) (s : State) : State :=
  modCtl seg (fun c => { c with lastResult := r, streak := streakAfter r c.streak }) s

/-- An attempt result either quarantines the segment or goes on with the result counted (R105). -/
theorem takeResult_cases (seg : SegId) (o : FrameOutcome) (goOn : State → State) (s : State) :
    takeResult seg o goOn s = quarantine seg o (countedResult seg o.result s)
      ∨ takeResult seg o goOn s = goOn (countedResult seg o.result s) := by
  unfold takeResult countedResult
  dsimp only
  split
  · exact .inl rfl
  · exact .inr rfl

theorem takeResult_line {seg : SegId} {o : FrameOutcome} {goOn : State → State} {s : State}
    (h : LineStep seg (countedResult seg o.result s) (goOn (countedResult seg o.result s))) :
    LineStep seg s (takeResult seg o goOn s) := by
  have h0 : LineStep seg s (countedResult seg o.result s) := modCtl_line _ _ _
  rcases takeResult_cases seg o goOn s with e | e <;> rw [e]
  · exact h0.trans (quarantine_line _ _ _)
  · exact h0.trans h

/-! ## Attempts, retries, recovery -/

theorem beginFrame_line (seg : SegId) (s : State) : LineStep seg s (beginFrame seg s) :=
  (modCtl_line seg _ _).trans (modActive_line seg _ _)

theorem beginDue_line (seg : SegId) (s : State) : LineStep seg s (beginDue seg s) := by
  unfold beginDue
  split
  · split
    · exact beginFrame_line _ _
    · exact (modCtl_line seg _ _).trans (modActive_line seg _ _)
  · exact refl seg s

theorem attemptDue_line (seg : SegId) (s : State) : LineStep seg s (attemptDue seg s) := by
  unfold attemptDue
  split
  · exact (modActive_line seg _ _).trans (beginBusyWait_line seg _)
  · exact beginDue_line _ _

theorem beginBackoff_line (seg : SegId) (s : State) : LineStep seg s (beginBackoff seg s) := by
  unfold beginBackoff
  split
  · exact attemptDue_line _ _
  · exact (modCtl_line seg _ _).trans (modActive_line seg _ _)

theorem countAttempt_line (seg : SegId) (o : FrameOutcome) (s : State) : LineStep seg s (countAttempt seg o s) :=
  modActive_line _ _ _

theorem retryOrComplete_line (seg : SegId) (o : FrameOutcome) (s : State) :
    LineStep seg s (retryOrComplete seg o s) := by
  unfold retryOrComplete
  split
  · exact refl seg s
  · split
    · exact (countAttempt_line seg _ _).trans (beginBackoff_line seg _)
    · exact (completeAttempt_line seg _ _).trans (afterCompletion_line seg _)
    · exact (completeJob_line seg _ _ _).trans (afterCompletion_line seg _)

theorem segmentFault_line (seg : SegId) (s : State) : LineStep seg s (segmentFault seg s) :=
  takeResult_line (refl seg _)

theorem recoverAt_line (seg : SegId) (p : RecoveryPhase) (n : Nat) (s : State) : LineStep seg s (recoverAt seg p n s) :=
  modCtl_line _ _ _

theorem recoverySuccess_line (seg : SegId) (s : State) : LineStep seg s (recoverySuccess seg s) := by
  unfold recoverySuccess
  dsimp only
  split
  · exact modCtl_line _ _ _
  · exact (modCtl_line seg _ _).trans (retryOrComplete_line seg _ _)

theorem recoveryStop_line (seg : SegId) (n : Nat) (f : Bool) (a : Lines) (s : State) :
    LineStep seg s (recoveryStop seg n f a s) := by
  unfold recoveryStop
  repeat' split
  all_goals first
    | exact recoverySuccess_line _ _
    | exact segmentFault_line _ _
    | exact recoverAt_line _ _ _ _

theorem recoveryCheck_line (seg : SegId) (n : Nat) (d : Bool) (a : Lines) (s : State) :
    LineStep seg s (recoveryCheck seg n d a s) := by
  unfold recoveryCheck
  repeat' split
  all_goals first
    | exact recoveryStop_line _ _ _ _ _
    | exact recoverAt_line _ _ _ _

theorem beginRecovery_line (seg : SegId) (r : RecoverySense) (s : State) : LineStep seg s (beginRecovery seg r s) := by
  unfold beginRecovery
  dsimp only
  split
  · exact (modCtl_line seg _ _).trans (recoveryCheck_line seg _ _ _ _)
  · exact (modCtl_line seg _ _).trans (recoverAt_line seg _ _ _)

theorem checkLines_line (seg : SegId) (l : Lines) (r : RecoverySense) (s : State) :
    LineStep seg s (checkLines seg l r s) := by
  unfold checkLines
  split
  · exact (modCtl_line seg _ s).trans
      (takeResult_line ((modActive_line seg _ _).trans (beginRecovery_line seg _ _)))
  · split
    · exact modCtl_line _ _ _
    · exact beginFrame_line _ _

theorem foreignEnds_line (seg : SegId) (s : State) : LineStep seg s (foreignEnds seg s) := by
  unfold foreignEnds
  dsimp only
  split
  · exact modCtl_line _ _ _
  · split
    · exact (modCtl_line seg _ _).trans (beginDue_line seg _)
    · exact (modCtl_line seg _ _).trans (modCtl_line seg _ _)
    · exact (modCtl_line seg _ _).trans (modCtl_line seg _ _)
    · exact (modCtl_line seg _ _).trans (beginBackoff_line seg _)
    · exact modCtl_line _ _ _
    · exact modCtl_line _ _ _

theorem setQueue_line {seg : SegId} {x : SegQueue} {s : State} (h : QueueBounded (queue seg s) → QueueBounded x) :
    LineStep seg s (setQueue seg x s) := by
  refine ⟨⟨_, _, _, _, _, _, _, rfl⟩, .inl rfl, fun hb q => ?_, id, fun _ _ => rfl, fun q hq => queue_setQueue_ne _ _ _ hq⟩
  by_cases hq : q = seg
  · subst hq; rw [queue_setQueue_same]; exact h (hb q)
  · rw [queue_setQueue_ne _ _ _ hq]; exact hb q

theorem reportStart_line (seg : SegId) (j : Job) (s : State) : LineStep seg s (reportStart seg j s) := by
  unfold reportStart
  split
  · exact (modSlot_line seg _ _ _).trans (modCtl_line seg _ _)
  · exact send_line _ _ _
  · exact send_line _ _ _

theorem select_line (seg : SegId) (s : State) : LineStep seg s (select seg s) := by
  unfold select
  split
  · exact refl seg s
  · rename_i h
    exact ((setQueue_line (arbiter_bounded h)).trans (modCtl_line seg _ _)).trans (reportStart_line seg _ _)

theorem abortRequest_line (seg : SegId) (k : SlotId) (s : State) : LineStep seg s (abortRequest seg k s) := by
  unfold abortRequest
  split
  · exact refl seg s
  · split
    · split
      · exact (modCtl_line seg _ _).trans (modActive_line seg _ _)
      · exact refl seg s
      · exact (completeJob_line seg _ _ _).trans (afterCompletion_line seg _)
      · exact (completeJob_line seg _ _ _).trans (afterCompletion_line seg _)
      · exact (completeJob_line seg _ _ _).trans (afterCompletion_line seg _)
    · exact refl seg s

end Sys2Proof.Machine
end

