-- ==== Sys2Proof/Laws/Controllers.lean ====
section
/-! SUPPORT. What a controller's state allows after each shared operation (Table 6.1), the operations taken one by one: what
each needs to find and what it leaves. -/

namespace Sys2Proof.Machine

open Sys2Proof.Safety

/-- A controller of one segment is as its state allows. -/
def SegOk (seg : SegId) (s : State) : Prop := ControllerOk (awaitsQueue seg s) (ctl seg s) (queue seg s)

/-- The same but for one clause: ACTIVE may stand without a job, as it does inside an event that has just completed it. -/
def SegLoose (seg : SegId) (s : State) : Prop :=
  (refusesJobs (ctl seg s).state = true →
      ((ctl seg s).state = .stopping ∧ awaitsQueue seg s = true) ∨ ((queue seg s).urgent = [] ∧ (queue seg s).routine = []))
    ∧ ((ctl seg s).state = .offline ∨ (ctl seg s).state = .quarantined → (ctl seg s).active = none)
    ∧ ((ctl seg s).own ≠ .quiet → (ctl seg s).state = .active ∨ (ctl seg s).state = .stopping)
    ∧ ((ctl seg s).recovery ≠ none → (ctl seg s).state = .recovering)

theorem SegOk.loose {seg : SegId} {s : State} (h : SegOk seg s) : SegLoose seg s :=
  ⟨h.1, h.2.1, h.2.2.2.1, h.2.2.2.2⟩

/-- The controller can begin or continue an attempt: online, with a job, nothing of its own on the wire, no recovery. -/
structure Holding (c : Controller) : Prop where
  online : refusesJobs c.state = false
  job : c.active ≠ none
  quiet : c.own = .quiet
  calm : c.recovery = none

theorem Holding.ok {seg : SegId} {s : State} (h : Holding (ctl seg s)) : SegOk seg s := by
  obtain ⟨h1, h2, h3, h4⟩ := h
  refine ⟨fun hr => absurd hr (by rw [h1]; exact Bool.false_ne_true), fun ho => ?_, fun _ => h2, fun hq => absurd h3 hq,
    fun hr => absurd h4 hr⟩
  rcases ho with e | e <;> rw [e] at h1 <;> cases h1

theorem loose_completeJob {seg : SegId} (o : FrameOutcome) (u : BitVec 4) {s : State} (h : SegLoose seg s) :
    SegLoose seg (completeJob seg o u s) ∧ (ctl seg (completeJob seg o u s)).active = none := by
  obtain ⟨b, hb⟩ := ctl_completeJob seg o u s
  unfold SegLoose
  rw [hb, queue_completeJob, (completeJob_line seg o u s).awaits]
  exact ⟨⟨h.1, fun _ => rfl, h.2.2.1, h.2.2.2⟩, rfl⟩

theorem loose_completeAttempt {seg : SegId} (o : FrameOutcome) {s : State} (h : SegLoose seg s) :
    SegLoose seg (completeAttempt seg o s) ∧ (ctl seg (completeAttempt seg o s)).active = none := by
  obtain ⟨b, hb⟩ := ctl_completeAttempt seg o s
  unfold SegLoose
  rw [hb, queue_completeAttempt, (completeAttempt_line seg o s).awaits]
  exact ⟨⟨h.1, fun _ => rfl, h.2.2.1, h.2.2.2⟩, rfl⟩

/-- An attempt result leaves the segment as its state allows where what goes on after it does (R105). -/
theorem takeResult_ok {seg : SegId} {o : FrameOutcome} {goOn : State → State} {s : State}
    (h : SegOk seg (goOn (countedResult seg o.result s))) : SegOk seg (takeResult seg o goOn s) := by
  rcases takeResult_cases seg o goOn s with e | e <;> rw [e]
  · exact quarantine_ok _ _ _ _
  · exact h

/-- STOPPING ends with the queue empty: already, or emptied because a soft reset has reached the controller (R116). -/
theorem endStopping_ok {seg : SegId} {s : State}
    (hq : awaitsQueue seg s = true ∨ ((queue seg s).urgent = [] ∧ (queue seg s).routine = [])) :
    SegOk seg (endStopping seg s) := by
  unfold SegOk
  rw [ctl_endStopping, queue_endStopping]
  split
  · exact controllerOk_offline rfl rfl
  · rename_i hn
    rcases hq with hq | hq
    · exact absurd (Bool.and_eq_true_iff.1 hq).1 hn
    · exact controllerOk_offline hq.1 hq.2

theorem afterCompletion_ok {seg : SegId} {s : State} (h : SegLoose seg s) (ha : (ctl seg s).active = none) :
    SegOk seg (afterCompletion seg s) := by
  obtain ⟨h1, h2, h3, h4⟩ := h
  unfold afterCompletion
  split <;> rename_i hs
  case h_3 => exact endStopping_ok ((h1 (by rw [hs]; rfl)).imp And.right id)
  all_goals
    unfold SegOk ControllerOk
    try simp only [ctl_modCtl_same, queue_modCtl]
    rw [hs] at h1 h2 h3 h4
    try rw [hs]
    simp_all [refusesJobs]

theorem beginFrame_ok {seg : SegId} {s : State} (h : Holding (ctl seg s)) : SegOk seg (beginFrame seg s) := by
  obtain ⟨h1, h2, h3, h4⟩ := h
  unfold SegOk ControllerOk beginFrame modActive
  simp only [ctl_modCtl_same, queue_modCtl]
  simp_all [refusesJobs]

theorem beginDue_ok {seg : SegId} {s : State} (h : Holding (ctl seg s)) : SegOk seg (beginDue seg s) := by
  unfold beginDue
  split
  · split
    · exact beginFrame_ok h
    · obtain ⟨h1, h2, h3, h4⟩ := h
      unfold SegOk ControllerOk modActive
      simp only [ctl_modCtl_same, queue_modCtl]
      simp_all [refusesJobs]
  · exact h.ok

theorem attemptDue_ok {seg : SegId} {s : State} (h : Holding (ctl seg s)) : SegOk seg (attemptDue seg s) := by
  unfold attemptDue
  split
  · refine Holding.ok ?_
    obtain ⟨h1, h2, h3, h4⟩ := h
    unfold beginBusyWait modActive
    simp only [ctl_modCtl_same]
    exact ⟨h1, by simpa using h2, h3, h4⟩
  · exact beginDue_ok h

theorem beginBackoff_ok {seg : SegId} {s : State} (h : Holding (ctl seg s)) : SegOk seg (beginBackoff seg s) := by
  unfold beginBackoff
  split
  · exact attemptDue_ok h
  · refine Holding.ok ?_
    obtain ⟨h1, h2, h3, h4⟩ := h
    unfold modActive
    simp only [ctl_modCtl_same]
    refine ⟨?_, by simpa using h2, h3, h4⟩
    dsimp only
    split
    · exact h1
    · rfl

theorem holding_countAttempt {seg : SegId} (o : FrameOutcome) {s : State} (h : Holding (ctl seg s)) :
    Holding (ctl seg (countAttempt seg o s)) := by
  obtain ⟨h1, h2, h3, h4⟩ := h
  unfold countAttempt modActive
  rw [ctl_modCtl_same]
  exact ⟨h1, by simpa using h2, h3, h4⟩

/-- A retryable result with nothing of the part's own on the wire: the job is held, or gone. -/
theorem retryOrComplete_ok {seg : SegId} (o : FrameOutcome) {s : State} (h : SegLoose seg s)
    (hq : (ctl seg s).own = .quiet) (hr : (ctl seg s).recovery = none)
    (ha : (ctl seg s).state = .active → (ctl seg s).active ≠ none) : SegOk seg (retryOrComplete seg o s) := by
  unfold retryOrComplete
  split
  · exact ⟨h.1, h.2.1, ha, h.2.2.1, h.2.2.2⟩
  · rename_i a hsome
    split
    · rename_i hd
      refine beginBackoff_ok (holding_countAttempt o ⟨?_, by rw [hsome]; simp, hq, hr⟩)
      cases hst : (ctl seg s).state <;> try rfl
      · have := h.2.1 (.inl hst); rw [hsome] at this; cases this
      · have := h.2.1 (.inr hst); rw [hsome] at this; cases this
      · unfold retryDecision at hd; rw [hst] at hd; simp at hd
    · have hl := loose_completeAttempt (seg := seg) o h
      exact afterCompletion_ok hl.1 hl.2
    · have hl := loose_completeJob (seg := seg) (bareOutcome .cancelled) (attemptsPlusOne a) h
      exact afterCompletion_ok hl.1 hl.2

theorem segmentFault_ok {seg : SegId} {s : State} (h : SegOk seg s) : SegOk seg (segmentFault seg s) := by
  refine takeResult_ok ?_
  unfold countedResult SegOk
  rw [id, ctl_modCtl_same, queue_modCtl]
  exact h

/-- A controller in RECOVERING with nothing of its own on the wire. -/
structure Recovering (c : Controller) : Prop where
  state : c.state = .recovering
  quiet : c.own = .quiet

theorem Recovering.ok {seg : SegId} {s : State} (h : Recovering (ctl seg s)) : SegOk seg s := by
  obtain ⟨h1, h2⟩ := h
  unfold SegOk ControllerOk
  rw [h1, h2]
  simp [refusesJobs]

theorem recoverAt_ok {seg : SegId} (p : RecoveryPhase) (n : Nat) {s : State} (h : Recovering (ctl seg s)) :
    SegOk seg (recoverAt seg p n s) := by
  refine Recovering.ok ?_
  unfold recoverAt
  rw [ctl_modCtl_same]
  exact ⟨h.state, h.quiet⟩

theorem recoverySuccess_ok {seg : SegId} {s : State} (h : Recovering (ctl seg s)) :
    SegOk seg (recoverySuccess seg s) := by
  have hl : SegLoose seg (modCtl seg (fun c => { c with state := .idle, bus := .free, recovery := none }) s) := by
    unfold SegLoose
    rw [ctl_modCtl_same]
    simp [refusesJobs, h.quiet]
  unfold recoverySuccess
  dsimp only
  split
  · rename_i hn
    refine ⟨hl.1, hl.2.1, fun hs => ?_, hl.2.2.1, hl.2.2.2⟩
    rw [ctl_modCtl_same] at hs
    cases hs
  · refine retryOrComplete_ok _ hl ?_ ?_ fun hs => ?_
    · rw [ctl_modCtl_same]; exact h.quiet
    · rw [ctl_modCtl_same]
    · rw [ctl_modCtl_same] at hs; cases hs

theorem recoveryStop_ok {seg : SegId} (n : Nat) (f : Bool) (a : Lines) {s : State} (h : Recovering (ctl seg s)) :
    SegOk seg (recoveryStop seg n f a s) := by
  unfold recoveryStop
  split
  · exact recoverySuccess_ok h
  split
  · exact segmentFault_ok h.ok
  split
  · exact recoverAt_ok _ _ h
  split
  · exact recoverAt_ok _ _ h
  · exact recoverAt_ok _ _ h

theorem recoveryCheck_ok {seg : SegId} (n : Nat) (d : Bool) (a : Lines) {s : State} (h : Recovering (ctl seg s)) :
    SegOk seg (recoveryCheck seg n d a s) := by
  unfold recoveryCheck
  split
  · exact recoveryStop_ok _ _ _ h
  split
  · exact recoverAt_ok _ _ h
  · exact recoverAt_ok _ _ h

theorem beginRecovery_ok (seg : SegId) (r : RecoverySense) (s : State) : SegOk seg (beginRecovery seg r s) := by
  have h : Recovering (ctl seg (modCtl seg
      (fun c => { c with state := .recovering, bus := .busy, own := .quiet, busySince := none }) s)) := by
    rw [ctl_modCtl_same]
    exact ⟨rfl, rfl⟩
  unfold beginRecovery
  dsimp only
  split
  · exact recoveryCheck_ok _ _ _ h
  · exact recoverAt_ok _ _ h

/-- The line check of an attempt that may begin (R97). -/
theorem checkLines_ok {seg : SegId} (l : Lines) (r : RecoverySense) {s : State}
    (ha : (ctl seg s).active ≠ none) (hr : (ctl seg s).recovery = none) : SegOk seg (checkLines seg l r s) := by
  unfold checkLines
  split
  · exact takeResult_ok (beginRecovery_ok _ _ _)
  · split
    · unfold SegOk ControllerOk
      rw [ctl_modCtl_same, queue_modCtl]
      simp_all [refusesJobs]
    · unfold SegOk ControllerOk beginFrame modActive
      simp only [ctl_modCtl_same, queue_modCtl]
      simp_all [refusesJobs]

/-- The stop of a foreign frame (R99). -/
theorem foreignEnds_ok {seg : SegId} {s : State} (hq : (ctl seg s).own = .quiet) (hr : (ctl seg s).recovery = none) :
    SegOk seg (foreignEnds seg s) := by
  unfold foreignEnds
  dsimp only
  split
  · unfold SegOk ControllerOk
    rw [ctl_modCtl_same, queue_modCtl]
    simp [refusesJobs, hq, hr]
  · rename_i a hs
    have hh : Holding (ctl seg (modCtl seg (fun c =>
        { c with state := .idle, bus := .free, busySince := none, addressExpected := false, byteInProgress := 0#8,
                 bitCount := 0 }) s)) := by
      refine ⟨?_, by rw [hs]; simp, ?_, ?_⟩ <;> rw [ctl_modCtl_same] <;> first | rfl | exact hq | exact hr
    split
    · exact beginDue_ok hh
    · refine Holding.ok ?_
      rw [ctl_modCtl_same]
      exact ⟨rfl, hh.job, hh.quiet, hh.calm⟩
    · refine Holding.ok ?_
      rw [ctl_modCtl_same]
      exact ⟨rfl, hh.job, hh.quiet, hh.calm⟩
    · exact beginBackoff_ok hh
    · exact hh.ok
    · exact hh.ok

end Sys2Proof.Machine
end

