-- ==== Sys2Proof/Laws/Mirror.lean ====
section
/-! SUPPORT. What the Mirror Table and the Refresh Scheduler can change: entries, groups, queues, busy waits and flags, and
nothing else; and the invariants of queues and controllers that every one of their operations keeps. -/

namespace Sys2Proof.Machine

open Sys2Proof.Safety

/-- Everything an operation of the Mirror Table or the Refresh Scheduler can do. -/
structure MirrorStep (s t : State) : Prop where
  frame : ∃ es gs qs cs fl, t = { s with entries := es, groups := gs, queues := qs, ctls := cs, flags := fl }
  bounded : QueuesBounded s → QueuesBounded t
  controllers : ControllersOk s → ControllersOk t
  waits : ∀ q, ∃ w, ctl q t = { ctl q s with busySince := w }

namespace MirrorStep

theorem refl (s : State) : MirrorStep s s := ⟨⟨_, _, _, _, _, rfl⟩, id, id, fun _ => ⟨_, rfl⟩⟩

theorem trans {s t u : State} (h : MirrorStep s t) (k : MirrorStep t u) : MirrorStep s u := by
  obtain ⟨⟨_, _, _, _, _, rfl⟩, h2, h3, h4⟩ := h
  obtain ⟨⟨_, _, _, _, _, rfl⟩, k2, k3, k4⟩ := k
  refine ⟨⟨_, _, _, _, _, rfl⟩, k2 ∘ h2, k3 ∘ h3, fun q => ?_⟩
  obtain ⟨w, hw⟩ := h4 q
  obtain ⟨v, hv⟩ := k4 q
  exact ⟨v, by rw [hv, hw]⟩

/-- A list of operations, one for each element. -/
theorem foldl {α : Type} {f : State → α → State} (hf : ∀ s a, MirrorStep s (f s a)) (l : List α) (s : State) :
    MirrorStep s (l.foldl f s) := by
  induction l generalizing s with
  | nil => exact refl s
  | cons a l ih => exact (hf s a).trans (ih _)

end MirrorStep

open MirrorStep

theorem modEntry_step (e : EntryId) (f : Entry → Entry) (s : State) : MirrorStep s (modEntry e f s) :=
  ⟨⟨_, _, _, _, _, rfl⟩, id, id, fun _ => ⟨_, rfl⟩⟩

theorem modGroup_step (g : GroupId) (f : Group → Group) (s : State) : MirrorStep s (modGroup g f s) :=
  ⟨⟨_, _, _, _, _, rfl⟩, id, id, fun _ => ⟨_, rfl⟩⟩

theorem raise_step (v : Event) (s : State) : MirrorStep s (raise v s) := ⟨⟨_, _, _, _, _, rfl⟩, id, id, fun _ => ⟨_, rfl⟩⟩

/-- A controller that differs in its busy wait only keeps what its state allows. -/
theorem controllerOk_busy {a : Bool} {c : Controller} {q : SegQueue} {w : Option Word} (h : ControllerOk a c q) :
    ControllerOk a { c with busySince := w } q := h

theorem admit_step (seg : SegId) (j : Job) (s : State) : MirrorStep s (requestAdmission seg j s).1 := by
  by_cases ha : admissionAnswer seg j.cls s = .admitted
  · refine ⟨⟨_, _, _, _, _, admit_frame seg j s⟩, fun hb q => ?_, fun hc q => ?_, admit_ctl seg j s⟩
    · have hq : queue q (requestAdmission seg j s).1 = getAt (putAt s.queues seg (enqueue j (queue seg s))) q := by
        rw [← admit_queues ha]; rfl
      rw [hq]
      by_cases h : q = seg
      · subst h; rw [getAt_putAt_same]; exact bounded_enqueue ha (hb q)
      · rw [getAt_putAt_ne _ _ h]; exact hb q
    · have hq : queue q (requestAdmission seg j s).1 = getAt (putAt s.queues seg (enqueue j (queue seg s))) q := by
        rw [← admit_queues ha]; rfl
      obtain ⟨w, hw⟩ := admit_ctl seg j s q
      have hwait := awaits_congr (s := s) (t := (requestAdmission seg j s).1) (by rw [admit_frame]) (by rw [admit_frame]) q
      rw [hq, hw, hwait]
      apply controllerOk_busy
      by_cases h : q = seg
      · subst h
        rw [getAt_putAt_same]
        have hn := not_refusesJobs_of_admitted ha
        exact ⟨fun hr => absurd hr (by rw [hn]; exact Bool.false_ne_true), (hc q).2⟩
      · rw [getAt_putAt_ne _ _ h]; exact hc q
  · rw [admit_refused ha]; exact refl s

theorem promote_step (seg : SegId) (e : EntryId) (s : State) : MirrorStep s (promote seg e s).1 := by
  have hf := promote_frame seg e s
  have hctl : ∀ q, ctl q (promote seg e s).1 = ctl q s := fun q => by rw [hf]; rfl
  refine ⟨⟨_, _, _, _, _, hf⟩, fun hb q => ?_, fun hc q => ?_, fun q => ⟨(ctl q s).busySince, hctl q⟩⟩
  · obtain ⟨h1, h2, h3⟩ := promote_queue seg e s q
    obtain ⟨b1, b2, b3⟩ := hb q
    exact ⟨by omega, by omega, by omega⟩
  · obtain ⟨h1, -, -⟩ := promote_queue seg e s q
    have hwait := awaits_congr (s := s) (t := (promote seg e s).1) (by rw [hf]) (by rw [hf]) q
    rw [hctl, hwait]
    refine ⟨fun hr => ((hc q).1 hr).imp id fun hq => ?_, (hc q).2⟩
    obtain ⟨e1, e2⟩ := hq
    simp only [occupancy, e1, e2, List.length_nil] at h1
    exact ⟨List.length_eq_zero_iff.1 (by omega), List.length_eq_zero_iff.1 (by omega)⟩

theorem removeJob_step (seg : SegId) (r : JobRef) (s : State) : MirrorStep s (removeJob seg r s).1 := by
  refine ⟨⟨_, _, _, _, _, removeJob_frame seg r s⟩, fun hb q => ?_, fun hc q => ?_, removeJob_ctl seg r s⟩
  · obtain ⟨h1, h2, h3, -⟩ := removeJob_queue seg r s q
    obtain ⟨b1, b2, b3⟩ := hb q
    exact ⟨by omega, by omega, by omega⟩
  · obtain ⟨-, h2, -, h4⟩ := removeJob_queue seg r s q
    obtain ⟨w, hw⟩ := removeJob_ctl seg r s q
    have hf := removeJob_frame seg r s
    have hwait := awaits_congr (s := s) (t := (removeJob seg r s).1) (by rw [hf]) (by rw [hf]) q
    rw [hw, hwait]
    apply controllerOk_busy
    refine ⟨fun hr => ((hc q).1 hr).imp id fun hq => ?_, (hc q).2⟩
    obtain ⟨e1, e2⟩ := hq
    rw [e1] at h4
    rw [e2] at h2
    exact ⟨List.length_eq_zero_iff.1 (by simpa using h4), List.length_eq_zero_iff.1 (by simpa using h2)⟩

/-! ## Entries -/

theorem publish_step (e : EntryId) (b : List Byte) (n : Option Half) (s : State) : MirrorStep s (publish e b n s) :=
  modEntry_step _ _ _

theorem makeStale_step (e : EntryId) (s : State) : MirrorStep s (makeStale e s) := modEntry_step _ _ _

theorem markFault_step (e : EntryId) (s : State) : MirrorStep s (markFault e s) := by
  unfold markFault
  split
  · exact refl s
  · exact (modEntry_step _ _ _).trans (raise_step _ _)

theorem raiseMissed_step (e : EntryId) (s : State) : MirrorStep s (raiseMissed e s) := modEntry_step _ _ _

theorem setRefreshAgain_step (e : EntryId) (s : State) : MirrorStep s (setRefreshAgain e s) := modEntry_step _ _ _

theorem refreshRefusedDown_step (e : EntryId) (s : State) : MirrorStep s (refreshRefusedDown e s) :=
  (modEntry_step _ _ _).trans (markFault_step _ _)

theorem requestRefresh_step (e : EntryId) (c : JobClass) (t : Option GroupId) (s : State) :
    MirrorStep s (requestRefresh e c t s).1 := by
  have h := admit_step (entry e s).cfg.seg { ref := .refresh e, cls := c, tag := t, attempts := 0#3 } s
  unfold requestRefresh
  revert h
  split <;> rename_i s1 heq <;> rw [heq] <;> intro h <;> dsimp only at h ⊢
  · exact h.trans (modEntry_step _ _ _)
  · split
    · exact (h.trans (raiseMissed_step _ _)).trans (raise_step _ _)
    · exact h.trans (raiseMissed_step _ _)
  · exact h.trans (refreshRefusedDown_step _ _)

theorem demandRefresh_step (e : EntryId) (s : State) : MirrorStep s (demandRefresh e s).1 := by
  have h := promote_step (entry e s).cfg.seg e s
  unfold demandRefresh
  split
  · exact requestRefresh_step _ _ _ _
  · revert h
    split <;> rename_i s1 heq <;> rw [heq] <;> intro h <;> dsimp only at h ⊢
    · exact h.trans (modEntry_step _ _ _)
    · exact h.trans (setRefreshAgain_step _ _)
  · exact refl s
  · exact setRefreshAgain_step _ _
  · exact refl s

theorem entryExpiry_step (e : EntryId) (d : Word) (s : State) : MirrorStep s (entryExpiry e d s) := by
  unfold entryExpiry
  dsimp only
  split
  · exact (modEntry_step _ _ _).trans (requestRefresh_step _ _ _ _)
  · exact (modEntry_step _ _ _).trans (modEntry_step _ _ _)
  · exact (modEntry_step _ _ _).trans (modEntry_step _ _ _)
  · exact modEntry_step _ _ _

theorem overtakeRefresh_step (e : EntryId) (s : State) : MirrorStep s (overtakeRefresh e s) := modEntry_step _ _ _

theorem requestWrite_step (e : EntryId) (s : State) : MirrorStep s (requestWrite e s).1 := by
  have h := admit_step (entry e s).cfg.seg { ref := .write e, cls := .urgent, tag := none, attempts := 0#3 } s
  unfold requestWrite
  revert h
  split <;> rename_i heq <;> rw [heq] <;> intro h <;> dsimp only at h ⊢
  · exact h.trans (modEntry_step _ _ _)
  · exact h

/-! ## Sweeps -/

theorem askMember_step (g : GroupId) (c : JobClass) (s : State) (e : EntryId) : MirrorStep s (askMember g c s e) := by
  have h := requestRefresh_step e c (some g) s
  unfold askMember
  split
  · revert h
    split <;> rename_i heq <;> rw [heq] <;> intro h <;> dsimp only at h ⊢ <;> exact h.trans (modGroup_step _ _ _)
  · exact refl s

theorem discardHeld_step (g : GroupId) (s : State) (e : EntryId) : MirrorStep s (discardHeld g s e) := by
  unfold discardHeld
  split
  · exact modEntry_step _ _ _
  · exact refl s

theorem publishHeld_step (g : GroupId) (n : Half) (s : State) (e : EntryId) : MirrorStep s (publishHeld g n s e) := by
  unfold publishHeld
  split
  · exact (publish_step _ _ _ _).trans (modEntry_step _ _ _)
  · exact refl s

theorem tornEnd_step (g : GroupId) (s : State) : MirrorStep s (tornEnd g s) := by
  unfold tornEnd
  exact ((MirrorStep.foldl (discardHeld_step g) (indices 128) s).trans (raise_step _ _)).trans (modGroup_step _ _ _)

theorem groupPublish_step (g : GroupId) (s : State) : MirrorStep s (groupPublish g s) := by
  unfold groupPublish
  exact ((MirrorStep.foldl (publishHeld_step g _) (indices 128) s).trans (raise_step _ _)).trans
    (modGroup_step _ _ _)

theorem beginSweep_step (g : GroupId) (c : JobClass) (s : State) : MirrorStep s (beginSweep g c s) := by
  have h := (modGroup_step g (fun x => { x with state := .sweeping, torn := false, outstanding := 0 }) s).trans
    (MirrorStep.foldl (askMember_step g c) (indices 128) _)
  unfold beginSweep
  dsimp only
  split
  · exact h.trans (tornEnd_step _ _)
  · exact h

theorem restartSweep_step (g : GroupId) (s : State) : MirrorStep s (restartSweep g s) := by
  unfold restartSweep
  split
  · exact (modGroup_step _ _ _).trans (beginSweep_step _ _ _)
  · exact refl s

theorem startSweep_step (g : GroupId) (c : JobClass) (s : State) : MirrorStep s (startSweep g c s) := by
  unfold startSweep
  dsimp only
  split
  · exact (beginSweep_step _ _ _).trans (restartSweep_step _ _)
  · exact beginSweep_step _ _ _

theorem endSweep_step (g : GroupId) (s : State) : MirrorStep s (endSweep g s) := by
  unfold endSweep
  split
  · exact (tornEnd_step _ _).trans (restartSweep_step _ _)
  · exact (groupPublish_step _ _).trans (restartSweep_step _ _)

theorem endIfNoneOutstanding_step (g : GroupId) (s : State) : MirrorStep s (endIfNoneOutstanding g s) := by
  unfold endIfNoneOutstanding
  split
  · exact endSweep_step _ _
  · exact refl s

theorem lowerOutstanding_step (g : GroupId) (s : State) : MirrorStep s (lowerOutstanding g s) :=
  (modGroup_step _ _ _).trans (endIfNoneOutstanding_step _ _)

theorem withdraw_step (g : GroupId) (w : Bool) (s : State) : MirrorStep s (withdraw g w s) := by
  unfold withdraw
  dsimp only
  split
  · exact (modGroup_step _ _ _).trans (endIfNoneOutstanding_step _ _)
  · exact (modGroup_step _ _ _).trans (lowerOutstanding_step _ _)

theorem withdrawMember_step (g : Option GroupId) (w : Bool) (s : State) : MirrorStep s (withdrawMember g w s) := by
  unfold withdrawMember
  split
  · exact withdraw_step _ _ _
  · exact refl s

theorem requestSweep_step (g : GroupId) (s : State) : MirrorStep s (requestSweep g s) := by
  unfold requestSweep
  split
  · exact startSweep_step _ _ _
  · exact modGroup_step _ _ _

theorem groupExpiry_step (g : GroupId) (d : Word) (s : State) : MirrorStep s (groupExpiry g d s) := by
  unfold groupExpiry
  dsimp only
  split
  · exact (modGroup_step _ _ _).trans (startSweep_step _ _ _)
  · exact (modGroup_step _ _ _).trans (modGroup_step _ _ _)

theorem memberLeft_step (g : Option GroupId) (s : State) : MirrorStep s (memberLeft g s) := by
  unfold memberLeft
  split
  · split
    · exact modGroup_step _ _ _
    · exact refl s
  · exact refl s

theorem reachDisabled_step (e : EntryId) (s : State) : MirrorStep s (reachDisabled e s) := by
  unfold reachDisabled
  dsimp only
  split
  · exact (modEntry_step _ _ _).trans (memberLeft_step _ _)
  · exact refl s

/-! ## The entry and group commands at their owners -/

theorem entryEnable_step (e : EntryId) (s : State) : MirrorStep s (entryEnable e s).1 := by
  unfold entryEnable
  split
  · exact refl s
  split
  · exact refl s
  · refine (modEntry_step e enabledEntry s).trans ?_
    dsimp only
    unfold informScheduler
    split
    · split
      · exact refl _
      · exact entryExpiry_step _ _ _
    · split
      · exact groupExpiry_step _ _ _
      · exact refl _

theorem removeQueuedRefresh_step (e : EntryId) (s : State) : MirrorStep s (removeQueuedRefresh e s) := by
  have h := removeJob_step (entry e s).cfg.seg (.refresh e) s
  unfold removeQueuedRefresh
  split
  · revert h
    split <;> rename_i heq <;> rw [heq] <;> intro h <;> dsimp only at h ⊢
    · exact (h.trans (modEntry_step _ _ _)).trans (withdrawMember_step _ _ _)
    · exact h
  · exact refl _

theorem removePendingWrite_step (e : EntryId) (s : State) : MirrorStep s (removePendingWrite e s) := by
  have h := removeJob_step (entry e s).cfg.seg (.write e) s
  unfold removePendingWrite
  split
  · revert h
    split <;> rename_i heq <;> rw [heq] <;> intro h <;> dsimp only at h ⊢
    · exact h.trans (modEntry_step _ _ _)
    · exact h
  · exact refl _

theorem withdrawHeld_step (e : EntryId) (s : State) : MirrorStep s (withdrawHeld e s) := by
  unfold withdrawHeld
  split
  · exact (modEntry_step _ _ _).trans (withdrawMember_step _ _ _)
  · exact refl _

theorem entryDisable_step (e : EntryId) (s : State) : MirrorStep s (entryDisable e s).1 := by
  unfold entryDisable
  split
  · exact refl s
  · dsimp only
    exact ((((modEntry_step _ _ _).trans (removeQueuedRefresh_step _ _)).trans (removePendingWrite_step _ _)).trans
      (withdrawHeld_step _ _)).trans (reachDisabled_step _ _)

theorem entryRefresh_step (e : EntryId) (s : State) : MirrorStep s (entryRefresh e s).1 := by
  unfold entryRefresh
  split
  · exact refl s
  split
  · exact refl s
  · exact demandRefresh_step _ _

theorem entryCommit_step (e : EntryId) (s : State) : MirrorStep s (entryCommit e s).1 := by
  have h := requestWrite_step e s
  unfold entryCommit
  split
  · exact refl s
  split
  · exact refl s
  split
  · exact refl s
  split
  · exact overtakeRefresh_step _ _
  · exact (modEntry_step _ _ _).trans (overtakeRefresh_step _ _)
  all_goals
    revert h
    split <;> rename_i heq <;> rw [heq] <;> intro h <;> dsimp only at h ⊢
    · exact h.trans (overtakeRefresh_step _ _)
    · exact h

theorem entryAckFault_step (e : EntryId) (s : State) : MirrorStep s (entryAckFault e s).1 := by
  exact modEntry_step e (fun x => { x with faultMark := false }) s

theorem groupSweep_step (g : GroupId) (s : State) : MirrorStep s (groupSweep g s).1 := by
  unfold groupSweep
  split
  · exact refl s
  · exact requestSweep_step _ _

/-! ## Reports at entries -/

theorem refreshDrained_step (e : EntryId) (c : Completion) (s : State) : MirrorStep s (refreshDrained e c s) :=
  ((modEntry_step _ _ _).trans (withdrawMember_step _ _ _)).trans (reachDisabled_step _ _)

theorem overtakenRefresh_step (e : EntryId) (c : Completion) (s : State) : MirrorStep s (overtakenRefresh e c s) := by
  have h : MirrorStep s (if c.result = .ok then s else markFault e (makeStale e s)) := by
    split
    · exact refl s
    · exact (makeStale_step _ _).trans (markFault_step _ _)
  unfold overtakenRefresh
  exact (h.trans (modEntry_step _ _ _)).trans (requestRefresh_step _ _ _ _)

theorem plainRefresh_step (e : EntryId) (c : Completion) (s : State) : MirrorStep s (plainRefresh e c s) := by
  have h : MirrorStep s (if c.result = .ok then publish e c.bytes none s else markFault e (makeStale e s)) := by
    split
    · exact publish_step _ _ _ _
    · exact (makeStale_step _ _).trans (markFault_step _ _)
  unfold plainRefresh
  dsimp only
  split
  · exact (h.trans (modEntry_step _ _ _)).trans (requestRefresh_step _ _ _ _)
  · exact h.trans (modEntry_step _ _ _)

theorem memberRefresh_step (e : EntryId) (g : GroupId) (c : Completion) (s : State) :
    MirrorStep s (memberRefresh e g c s) := by
  unfold memberRefresh
  split
  · exact (modEntry_step _ _ _).trans (lowerOutstanding_step _ _)
  · exact ((((makeStale_step _ _).trans (markFault_step _ _)).trans (modEntry_step _ _ _)).trans
      (modGroup_step _ _ _)).trans (lowerOutstanding_step _ _)

theorem takeRefresh_step (e : EntryId) (c : Completion) (s : State) : MirrorStep s (takeRefresh e c s) := by
  unfold takeRefresh
  split
  · split
    · exact overtakenRefresh_step _ _ _
    · exact plainRefresh_step _ _ _
  · exact refreshDrained_step _ _ _
  · exact refl s

theorem takeMemberRefresh_step (e : EntryId) (g : GroupId) (c : Completion) (s : State) :
    MirrorStep s (takeMemberRefresh e g c s) := by
  unfold takeMemberRefresh
  split
  · exact memberRefresh_step _ _ _ _
  · exact refreshDrained_step _ _ _
  · exact refl s

theorem writeEffects_step (e : EntryId) (c : Completion) (s : State) : MirrorStep s (writeEffects e c s) := by
  have h1 : MirrorStep s (if writeOutcome c.result = .failed then s else publish e c.bytes none s) := by
    split
    · exact refl s
    · exact publish_step _ _ _ _
  have h2 : ∀ t, MirrorStep t (if writeOutcome c.result = .done then t else markFault e t) := by
    intro t
    split
    · exact refl t
    · exact markFault_step _ _
  have h3 : ∀ t, MirrorStep t (if c.result = .verifyMismatch then raise .verifyMismatch t else t) := by
    intro t
    split
    · exact raise_step _ _
    · exact refl t
  exact (((h1.trans (modEntry_step _ _ _)).trans (h2 _)).trans (h3 _)).trans (raise_step _ _)

theorem writeAgainRequest_step (e : EntryId) (s : State) : MirrorStep s (writeAgainRequest e s) := by
  have h := (modEntry_step e (fun x => { x with writeAgain := false }) s).trans (requestWrite_step e _)
  unfold writeAgainRequest
  revert h
  split <;> rename_i heq <;> rw [heq] <;> intro h <;> dsimp only at h ⊢
  · exact h
  · exact (h.trans (modEntry_step _ _ _)).trans (markFault_step _ _)
  · exact (h.trans (modEntry_step _ _ _)).trans (markFault_step _ _)

theorem enabledWrite_step (e : EntryId) (c : Completion) (s : State) : MirrorStep s (enabledWrite e c s) := by
  unfold enabledWrite
  dsimp only
  split
  · exact (writeEffects_step _ _ _).trans (writeAgainRequest_step _ _)
  split
  · exact (writeEffects_step _ _ _).trans (modEntry_step _ _ _)
  · exact writeEffects_step _ _ _

theorem takeNotice_step (n : Notice) (s : State) : MirrorStep s (takeNotice n s) := by
  have h1 : ∀ s e, MirrorStep s (noticeStales n s e) := by
    intro s e
    unfold noticeStales
    split
    · exact makeStale_step _ _
    · exact refl s
  have h2 : ∀ s e, MirrorStep s (noticeRefreshes n s e) := by
    intro s e
    unfold noticeRefreshes
    split
    · exact demandRefresh_step _ _
    · exact refl s
  have h3 : ∀ s g, MirrorStep s (noticeSweeps n s g) := by
    intro s g
    unfold noticeSweeps
    split
    · exact requestSweep_step _ _
    · exact refl s
  exact ((MirrorStep.foldl h1 _ _).trans (MirrorStep.foldl h2 _ _)).trans (MirrorStep.foldl h3 _ _)

end Sys2Proof.Machine
end

