-- ==== Sys2Proof/Laws/PerInstr.lean ====
section
/-! SUPPORT. The family Form: for every command, when a term is the command of its row. -/

namespace Sys2Proof.Laws

/-- What well-formedness says of a term: a condition for six rows, nothing for the others. -/
def Form.Statement (i : Instr) : Prop :=
  match i with
  | .unknownCommand code _ _ => wellFormed i = true ↔ code ∉ Machine.knownCodes
  | .hostWrite a be _ => wellFormed i = true ↔ (wordAligned a = true ∧ otherWrite a be = true)
  | .unmappedRead a => wellFormed i = true ↔ (wordAligned a = true ∧ Machine.locate a = none)
  | .timebaseTick reports | .slotCancel _ _ reports | .softReset _ _ reports _ =>
    wellFormed i = true ↔ (reports.map LineReport.seg).Nodup ∧ ∀ w ∈ reports, w.bits.length ≤ 8
  | _ => wellFormed i = true

theorem Form.entryEnable (arg : Byte) (tag : Half) : Form.Statement (.entryEnable arg tag) := rfl

theorem Form.entryDisable (arg : Byte) (tag : Half) : Form.Statement (.entryDisable arg tag) := rfl

theorem Form.entryRefresh (arg : Byte) (tag : Half) : Form.Statement (.entryRefresh arg tag) := rfl

theorem Form.entryCommit (arg : Byte) (tag : Half) : Form.Statement (.entryCommit arg tag) := rfl

theorem Form.entryAckFault (arg : Byte) (tag : Half) : Form.Statement (.entryAckFault arg tag) := rfl

theorem Form.groupSweep (arg : Byte) (tag : Half) : Form.Statement (.groupSweep arg tag) := rfl

theorem Form.segmentOnline (arg : Byte) (tag : Half) (sense : SegmentSense) : Form.Statement (.segmentOnline arg tag sense) := rfl

theorem Form.segmentOffline (arg : Byte) (tag : Half) : Form.Statement (.segmentOffline arg tag) := rfl

theorem Form.segmentRestore (arg : Byte) (tag : Half) (sense : RecoverySense) : Form.Statement (.segmentRestore arg tag sense) := rfl

theorem Form.slotSubmit (arg : Byte) (tag : Half) : Form.Statement (.slotSubmit arg tag) := rfl

theorem Form.slotCancel (arg : Byte) (tag : Half) (reports : List LineReport) :
    Form.Statement (.slotCancel arg tag reports) := by
  simp [Form.Statement, wellFormed, reportsOk]

theorem Form.slotRelease (arg : Byte) (tag : Half) : Form.Statement (.slotRelease arg tag) := rfl

theorem Form.listenEnable (arg : Byte) (tag : Half) : Form.Statement (.listenEnable arg tag) := rfl

theorem Form.listenDisable (arg : Byte) (tag : Half) : Form.Statement (.listenDisable arg tag) := rfl

theorem Form.capturePop (arg : Byte) (tag : Half) : Form.Statement (.capturePop arg tag) := rfl

theorem Form.captureFlush (arg : Byte) (tag : Half) : Form.Statement (.captureFlush arg tag) := rfl

theorem Form.softReset (arg : Byte) (tag : Half) (reports : List LineReport) (taken : Fin 21) :
    Form.Statement (.softReset arg tag reports taken) := by
  simp [Form.Statement, wellFormed, reportsOk]

theorem Form.unknownCommand (code : Byte) (arg : Byte) (tag : Half) : Form.Statement (.unknownCommand code arg tag) := by simp [Form.Statement, wellFormed, codeUnknown]

theorem Form.stagingBufferWrite (entry : EntryId) (word : Fin 8) (be : BitVec 4) (data : Word) : Form.Statement (.stagingBufferWrite entry word be data) := rfl

theorem Form.groupPeriodWrite (record : Fin 16) (be : BitVec 4) (data : Word) : Form.Statement (.groupPeriodWrite record be data) := rfl

theorem Form.eventFlagWrite (be : BitVec 4) (data : Word) : Form.Statement (.eventFlagWrite be data) := rfl

theorem Form.eventEnableWrite (be : BitVec 4) (data : Word) : Form.Statement (.eventEnableWrite be data) := rfl

theorem Form.accessErrorRecordClear (be : BitVec 4) (data : Word) : Form.Statement (.accessErrorRecordClear be data) := rfl

theorem Form.accessErrorCountClear (be : BitVec 4) (data : Word) : Form.Statement (.accessErrorCountClear be data) := rfl

theorem Form.hostWrite (addr : Addr) (be : BitVec 4) (data : Word) : Form.Statement (.hostWrite addr be data) := by simp [Form.Statement, wellFormed]

theorem Form.unmappedRead (addr : Addr) : Form.Statement (.unmappedRead addr) := by simp [Form.Statement, wellFormed]

theorem Form.pinReset : Form.Statement (.pinReset) := rfl

theorem Form.pinResetRelease : Form.Statement (.pinResetRelease) := rfl

theorem Form.timebaseTick (reports : List LineReport) : Form.Statement (.timebaseTick reports) := by
  simp [Form.Statement, wellFormed, reportsOk]

theorem Form.entryDueExpiry (entry : EntryId) : Form.Statement (.entryDueExpiry entry) := rfl

theorem Form.groupDueExpiry (group : GroupId) : Form.Statement (.groupDueExpiry group) := rfl

theorem Form.selection (seg : SegId) : Form.Statement (.selection seg) := rfl

theorem Form.startReport (entry : EntryId) : Form.Statement (.startReport entry) := rfl

theorem Form.attemptBegin (seg : SegId) (lines : Lines) (sense : RecoverySense) : Form.Statement (.attemptBegin seg lines sense) := rfl

theorem Form.frameEnd (seg : SegId) (wire : Traffic) : Form.Statement (.frameEnd seg wire) := rfl

theorem Form.frameEndedEarly (seg : SegId) (wire : Traffic) : Form.Statement (.frameEndedEarly seg wire) := rfl

theorem Form.arbitrationLoss (seg : SegId) (wire : Traffic) (point : LossPoint) : Form.Statement (.arbitrationLoss seg wire point) := rfl

theorem Form.holdTimeout (seg : SegId) (wire : Traffic) : Form.Statement (.holdTimeout seg wire) := rfl

theorem Form.stopAttemptEnd (seg : SegId) : Form.Statement (.stopAttemptEnd seg) := rfl

theorem Form.stopAttemptTimeout (seg : SegId) (sense : RecoverySense) : Form.Statement (.stopAttemptTimeout seg sense) := rfl

theorem Form.settleEnd (seg : SegId) : Form.Statement (.settleEnd seg) := rfl

theorem Form.backoffEnd (seg : SegId) : Form.Statement (.backoffEnd seg) := rfl

theorem Form.busyLimitExpiry (seg : SegId) : Form.Statement (.busyLimitExpiry seg) := rfl

theorem Form.foreignStart (seg : SegId) : Form.Statement (.foreignStart seg) := rfl

theorem Form.foreignStop (seg : SegId) : Form.Statement (.foreignStop seg) := rfl

theorem Form.addressByteDecision (seg : SegId) (byte : Byte) : Form.Statement (.addressByteDecision seg byte) := rfl

theorem Form.receptionEnd (seg : SegId) (bytes : List Byte) (ending : ReceptionEnding) : Form.Statement (.receptionEnd seg bytes ending) := rfl

theorem Form.deviceNotice : Form.Statement (.deviceNotice) := rfl

theorem Form.refreshCompletion (entry : EntryId) : Form.Statement (.refreshCompletion entry) := rfl

theorem Form.memberRefreshCompletion (entry : EntryId) : Form.Statement (.memberRefreshCompletion entry) := rfl

theorem Form.writeCompletion (entry : EntryId) : Form.Statement (.writeCompletion entry) := rfl

theorem Form.slotCompletion (slot : SlotId) : Form.Statement (.slotCompletion slot) := rfl

theorem Form.releasePulse (seg : SegId) (lines : Lines) (afterStop : Lines) : Form.Statement (.releasePulse seg lines afterStop) := rfl

theorem Form.lineClearHoldEnd (seg : SegId) (lines : Lines) (afterStop : Lines) : Form.Statement (.lineClearHoldEnd seg lines afterStop) := rfl

theorem Form.recoveryHoldTimeout (seg : SegId) : Form.Statement (.recoveryHoldTimeout seg) := rfl

theorem Form.clockLineSensedHigh (seg : SegId) (sda : Bool) (sense : RecoverySense) : Form.Statement (.clockLineSensedHigh seg sda sense) := rfl

theorem Form.recoveryLinesSensedHigh (seg : SegId) (sda : Bool) (afterStop : Lines) : Form.Statement (.recoveryLinesSensedHigh seg sda afterStop) := rfl

end Sys2Proof.Laws
end

