-- ==== Sys2Proof/Laws/Port.lean ====
section
/-! SUPPORT. The Command Port's shared operation: what a full write of the command word does, by the checks of R147. -/

namespace Sys2Proof.Machine

/-- The fields of the command word stand side by side: tag, argument, code (Table 10.3). -/
theorem commandWord_eq (code arg : Byte) (tag : Half) : commandWord code arg tag = tag ++ arg ++ code := by
  unfold commandWord field
  apply BitVec.eq_of_getLsbD_eq
  intro i hi
  simp only [BitVec.getLsbD_or, BitVec.getLsbD_shiftLeft, BitVec.getLsbD_append, BitVec.getLsbD_setWidth, hi,
    decide_true, Bool.true_and, Nat.not_lt_zero, decide_false, Bool.not_false, Nat.sub_zero]
  by_cases h1 : i < 8
  · have h2 : i < 16 := by omega
    simp [h1, h2]
  · by_cases h2 : i < 16
    · have h3 : i - 8 < 8 := by omega
      simp [h1, h2, h3, BitVec.getLsbD_of_ge code i (by omega)]
      exact fun _ => by omega
    · have h3 : ¬ i - 8 < 8 := by omega
      simp [h1, h2, h3, Nat.sub_sub, BitVec.getLsbD_of_ge code i (by omega), BitVec.getLsbD_of_ge arg (i - 8) (by omega)]
      exact fun _ => by omega

/-- While RESETn is asserted a write of the command word changes nothing (R160). -/
theorem portCommand_inReset {α : Type} (code arg : Byte) (tag : Half) (index : Option α)
    (owner : α → State → State × Answer) {s : State} (h : s.inReset = true) :
    portCommand code arg tag index owner s = s := by
  simp [portCommand, h]

/-- A command that passes the checks is answered by its owner (R147). -/
theorem portCommand_ready {α : Type} (code arg : Byte) (tag : Half) (i : α)
    (owner : α → State → State × Answer) {s : State} (h : s.inReset = false) (hr : s.resetting = false) :
    portCommand code arg tag (some i) owner s
      = answerCommand code tag (owner i { s with command := tag ++ arg ++ code }).2
          (owner i { s with command := tag ++ arg ++ code }).1 := by
  simp [portCommand, h, hr, commandWord_eq]

/-- An argument outside its range is refused BAD_INDEX (R147). -/
theorem portCommand_badIndex {α : Type} (code arg : Byte) (tag : Half)
    (owner : α → State → State × Answer) {s : State} (h : s.inReset = false) (hr : s.resetting = false) :
    portCommand code arg tag none owner s
      = answerCommand code tag (.refused .badIndex) { s with command := tag ++ arg ++ code } := by
  simp [portCommand, h, hr, commandWord_eq]

/-- While RESETTING a command with a known code is refused RESETTING (R147). -/
theorem portCommand_resetting {α : Type} (code arg : Byte) (tag : Half) (index : Option α)
    (owner : α → State → State × Answer) {s : State} (h : s.inReset = false) (hr : s.resetting = true) :
    portCommand code arg tag index owner s
      = answerCommand code tag (.refused .resetting) { s with command := tag ++ arg ++ code } := by
  simp [portCommand, h, hr, commandWord_eq]

/-- The index a byte names, from an index (R147). -/
theorem indexOf_val {n : Nat} (i : Fin n) : indexOf n i.val = some i := by
  simp [indexOf]

end Sys2Proof.Machine
end

