-- ==== Sys2Proof/Laws/Streak.lean ====
section
/-! SUPPORT. The fault streak and the configuration through every shared operation of a Segment Controller: an operation that
finds the streak below the threshold leaves it so, or leaves the segment QUARANTINED or OFFLINE (R103). -/

namespace Sys2Proof.Machine

open Sys2Proof.Safety

/-- An online controller with a configuration SEGMENT_ONLINE accepts and a streak below its threshold. -/
structure Online (c : Controller) : Prop where
  valid : segConfigValid c.cfg = true
  below : c.streak.toNat < c.cfg.threshold.toNat
  up : c.state ≠ .offline

theorem Online.ok {c : Controller} (h : Online c) : StreakOk c :=
  ⟨fun e => absurd e h.up, fun _ => h.valid, fun _ _ => h.below⟩

theorem Online.same {c d : Controller} (h : Online c) (hc : d.cfg = c.cfg) (hs : d.streak = c.streak)
    (hu : d.state ≠ .offline) : Online d :=
  ⟨by rw [hc]; exact h.valid, by rw [hc, hs]; exact h.below, hu⟩

/-- Outside OFFLINE and QUARANTINED the invariant of a segment's streak says that it is online. -/
theorem online_of_streakOk {c : Controller} (h : StreakOk c) (ho : c.state ≠ .offline) (hq : c.state ≠ .quarantined) :
    Online c := ⟨h.2.1 ho, h.2.2 ho hq, ho⟩

theorem streakOk_offline (c : Controller) : StreakOk (offlineCtl c) :=
  ⟨fun _ => rfl, fun e => absurd rfl e, fun e => absurd rfl e⟩

theorem online_completeJob {seg : SegId} (o : FrameOutcome) (u : BitVec 4) {s : State} (h : Online (ctl seg s)) :
    Online (ctl seg (completeJob seg o u s)) := by
  obtain ⟨b, hb⟩ := ctl_completeJob seg o u s
  rw [hb]
  exact h.same rfl rfl h.up

theorem online_completeAttempt {seg : SegId} (o : FrameOutcome) {s : State} (h : Online (ctl seg s)) :
    Online (ctl seg (completeAttempt seg o s)) := by
  obtain ⟨b, hb⟩ := ctl_completeAttempt seg o s
  rw [hb]
  exact h.same rfl rfl h.up

theorem endStopping_streak (seg : SegId) (s : State) : StreakOk (ctl seg (endStopping seg s)) := by
  rw [ctl_endStopping]
  exact streakOk_offline _

theorem afterCompletion_streak {seg : SegId} {s : State} (h : Online (ctl seg s)) :
    StreakOk (ctl seg (afterCompletion seg s)) := by
  unfold afterCompletion
  split <;> rename_i hs
  case h_3 => exact endStopping_streak seg s
  all_goals first
    | exact h.ok
    | (rw [ctl_modCtl_same]
       refine Online.ok (Online.same h rfl rfl ?_)
       first | exact h.up | simp)

/-- QUARANTINED keeps the configuration it was entered with. -/
theorem quarantine_streak {seg : SegId} (o : FrameOutcome) {s : State} (h : segConfigValid (ctl seg s).cfg = true) :
    StreakOk (ctl seg (quarantine seg o s)) := by
  have hc : (ctl seg (quarantine seg o s)).cfg = (ctl seg s).cfg
      ∧ (ctl seg (quarantine seg o s)).state = .quarantined := by
    unfold quarantine
    rw [ctl_raise, ctl_modCtl_same, ctl_flush]
    unfold cutReception
    rw [ctl_setReception]
    obtain ⟨b, hb⟩ := ctl_completeAttempt seg o s
    rw [hb]
    exact ⟨rfl, rfl⟩
  refine ⟨fun e => ?_, fun _ => by rw [hc.1]; exact h, fun _ e => absurd hc.2 e⟩
  rw [hc.2] at e
  cases e

theorem streakAfter_le (r : Result) (n : BitVec 4) : (streakAfter r n).toNat ≤ n.toNat + 1 := by
  revert n
  cases r <;> decide

/-- An attempt result either quarantines the segment or leaves its streak below the threshold (R105). -/
theorem takeResult_streak {seg : SegId} {o : FrameOutcome} {goOn : State → State} {s : State} (h : Online (ctl seg s))
    (k : ∀ t, Online (ctl seg t) → (ctl seg t).state = (ctl seg s).state → (ctl seg t).active = (ctl seg s).active →
      StreakOk (ctl seg (goOn t))) :
    StreakOk (ctl seg (takeResult seg o goOn s)) := by
  unfold takeResult
  dsimp only
  split
  · refine quarantine_streak o ?_
    rw [ctl_modCtl_same]
    exact h.valid
  · rename_i hn
    have hc : ctl seg (modCtl seg (fun c =>
        { c with lastResult := o.result, streak := streakAfter o.result c.streak }) s)
        = { ctl seg s with lastResult := o.result, streak := streakAfter o.result (ctl seg s).streak } :=
      ctl_modCtl_same _ _ _
    refine k _ ⟨?_, ?_, ?_⟩ ?_ ?_
    · rw [hc]; exact h.valid
    · have hne : (streakAfter o.result (ctl seg s).streak).toNat ≠ (ctl seg s).cfg.threshold.toNat := by
        intro e
        apply hn
        left
        rw [hc]
        exact BitVec.eq_of_toNat_eq e
      have hle := streakAfter_le o.result (ctl seg s).streak
      have hb := h.below
      rw [hc]
      have hle' : (streakAfter o.result (ctl seg s).streak).toNat ≤ (ctl seg s).cfg.threshold.toNat := by omega
      exact Nat.lt_of_le_of_ne hle' hne
    · rw [hc]; exact h.up
    · rw [hc]
    · rw [hc]

theorem online_modCtl {seg : SegId} {f : Controller → Controller} {s : State} (h : Online (ctl seg s))
    (hc : (f (ctl seg s)).cfg = (ctl seg s).cfg) (hs : (f (ctl seg s)).streak = (ctl seg s).streak)
    (hu : (f (ctl seg s)).state ≠ .offline) : Online (ctl seg (modCtl seg f s)) := by
  rw [ctl_modCtl_same]
  exact h.same hc hs hu

theorem online_modActive {seg : SegId} {f : ActiveJob → ActiveJob} {s : State} (h : Online (ctl seg s)) :
    Online (ctl seg (modActive seg f s)) := online_modCtl h rfl rfl h.up

theorem online_beginFrame {seg : SegId} {s : State} (h : Online (ctl seg s)) : Online (ctl seg (beginFrame seg s)) :=
  online_modActive (online_modCtl h rfl rfl (by simp))

theorem online_beginDue {seg : SegId} {s : State} (h : Online (ctl seg s)) : Online (ctl seg (beginDue seg s)) := by
  unfold beginDue
  split
  · split
    · exact online_beginFrame h
    · exact online_modActive (online_modCtl h rfl rfl (by simp))
  · exact h

theorem online_attemptDue {seg : SegId} {s : State} (h : Online (ctl seg s)) : Online (ctl seg (attemptDue seg s)) := by
  unfold attemptDue
  split
  · exact online_modCtl (online_modActive h) rfl rfl (online_modActive (f := fun a => { a with phase := .due }) h).up
  · exact online_beginDue h

theorem online_beginBackoff {seg : SegId} {s : State} (h : Online (ctl seg s)) :
    Online (ctl seg (beginBackoff seg s)) := by
  unfold beginBackoff
  split
  · exact online_attemptDue h
  · refine online_modActive (online_modCtl h rfl rfl ?_)
    dsimp only
    split
    · exact h.up
    · simp

theorem retryOrComplete_streak {seg : SegId} (o : FrameOutcome) {s : State} (h : Online (ctl seg s)) :
    StreakOk (ctl seg (retryOrComplete seg o s)) := by
  unfold retryOrComplete
  split
  · exact h.ok
  · split
    · exact (online_beginBackoff (online_modActive h)).ok
    · exact afterCompletion_streak (online_completeAttempt _ h)
    · exact afterCompletion_streak (online_completeJob _ _ h)

theorem segmentFault_streak {seg : SegId} {s : State} (h : Online (ctl seg s)) : StreakOk (ctl seg (segmentFault seg s)) :=
  takeResult_streak h fun _ ht _ _ => ht.ok

theorem recoverAt_streak {seg : SegId} (p : RecoveryPhase) (n : Nat) {s : State} (h : Online (ctl seg s)) :
    StreakOk (ctl seg (recoverAt seg p n s)) := (online_modCtl h rfl rfl h.up).ok

theorem recoverySuccess_streak {seg : SegId} {s : State} (h : Online (ctl seg s)) :
    StreakOk (ctl seg (recoverySuccess seg s)) := by
  have h1 : Online (ctl seg (modCtl seg (fun c => { c with state := .idle, bus := .free, recovery := none }) s)) :=
    online_modCtl h rfl rfl (by simp)
  unfold recoverySuccess
  dsimp only
  split
  · exact h1.ok
  · exact retryOrComplete_streak _ h1

theorem recoveryStop_streak {seg : SegId} (n : Nat) (f : Bool) (a : Lines) {s : State} (h : Online (ctl seg s)) :
    StreakOk (ctl seg (recoveryStop seg n f a s)) := by
  unfold recoveryStop
  split
  · exact recoverySuccess_streak h
  split
  · exact segmentFault_streak h
  split
  · exact recoverAt_streak _ _ h
  split
  · exact recoverAt_streak _ _ h
  · exact recoverAt_streak _ _ h

theorem recoveryCheck_streak {seg : SegId} (n : Nat) (d : Bool) (a : Lines) {s : State} (h : Online (ctl seg s)) :
    StreakOk (ctl seg (recoveryCheck seg n d a s)) := by
  unfold recoveryCheck
  split
  · exact recoveryStop_streak _ _ _ h
  split
  · exact recoverAt_streak _ _ h
  · exact recoverAt_streak _ _ h

theorem beginRecovery_streak {seg : SegId} (r : RecoverySense) {s : State} (h : Online (ctl seg s)) :
    StreakOk (ctl seg (beginRecovery seg r s)) := by
  have h1 : Online (ctl seg (modCtl seg
      (fun c => { c with state := .recovering, bus := .busy, own := .quiet, busySince := none }) s)) :=
    online_modCtl h rfl rfl (by simp)
  unfold beginRecovery
  dsimp only
  split
  · exact recoveryCheck_streak _ _ _ h1
  · exact recoverAt_streak _ _ h1

theorem checkLines_streak {seg : SegId} (l : Lines) (r : RecoverySense) {s : State} (h : Online (ctl seg s)) :
    StreakOk (ctl seg (checkLines seg l r s)) := by
  unfold checkLines
  split
  · exact takeResult_streak (online_modCtl h rfl rfl h.up)
      fun _ ht _ _ => beginRecovery_streak _ (online_modActive ht)
  · split
    · exact (online_modCtl h rfl rfl (by simp)).ok
    · exact (online_beginFrame h).ok

theorem foreignEnds_streak {seg : SegId} {s : State} (h : Online (ctl seg s)) :
    StreakOk (ctl seg (foreignEnds seg s)) := by
  have h1 : Online (ctl seg (modCtl seg (fun c =>
      { c with state := .idle, bus := .free, busySince := none, addressExpected := false, byteInProgress := 0#8,
               bitCount := 0 }) s)) := online_modCtl h rfl rfl (by simp)
  unfold foreignEnds
  dsimp only
  split
  · exact h1.ok
  · split
    · exact (online_beginDue h1).ok
    · exact (online_modCtl h1 rfl rfl (by simp)).ok
    · exact (online_modCtl h1 rfl rfl (by simp)).ok
    · exact (online_beginBackoff h1).ok
    · exact h1.ok
    · exact h1.ok

theorem online_select {seg : SegId} {s : State} (h : Online (ctl seg s)) : Online (ctl seg (select seg s)) := by
  unfold select
  split
  · exact h
  · rename_i j q _
    have h1 : Online (ctl seg (modCtl seg (fun c => { c with active := some (selectedJob j) }) (setQueue seg q s))) :=
      online_modCtl h rfl rfl h.up
    unfold reportStart
    split
    · exact online_modCtl h1 rfl rfl h1.up
    · exact h1
    · exact h1

theorem abortRequest_streak {seg : SegId} (k : SlotId) {s : State} (h : StreakOk (ctl seg s))
    (hj : (ctl seg s).state = .offline ∨ (ctl seg s).state = .quarantined → (ctl seg s).active = none) :
    StreakOk (ctl seg (abortRequest seg k s)) := by
  unfold abortRequest
  split
  · exact h
  · rename_i a ha
    have hon : Online (ctl seg s) := by
      refine online_of_streakOk h (fun e => ?_) fun e => ?_
      · have := hj (.inl e); rw [ha] at this; cases this
      · have := hj (.inr e); rw [ha] at this; cases this
    split
    · split
      · exact (online_modActive (online_modCtl hon rfl rfl hon.up)).ok
      · exact h
      · exact afterCompletion_streak (online_completeJob _ _ hon)
      · exact afterCompletion_streak (online_completeJob _ _ hon)
      · exact afterCompletion_streak (online_completeJob _ _ hon)
    · exact h

end Sys2Proof.Machine
end

