-- ==== Sys2Proof/Laws/Reset.lean ====
section
/-! SUPPORT. The deliveries of a soft reset (R149): their order, what each can change, and the bounds of queues and ring and the
invariants of the controllers that every one of them keeps. -/

namespace Sys2Proof.Machine

open Sys2Proof.Safety

/-! ## The order of the deliveries -/

theorem resetOrder_nodup : resetOrder.Nodup := by decide

/-- One fewer delivery is left once the next has been taken. -/
theorem undelivered_pred {u : Fin 21} (h : u ≠ 0) : (u - 1).val + 1 = u.val := by
  revert h
  revert u
  decide

/-- The next delivery taken, the rest are left; a delivery is taken once. -/
theorem deliveriesLeft_next {s : State} {d : Delivery} {rest : List Delivery} (h : deliveriesLeft s = d :: rest) :
    deliveriesLeft { s with undelivered := s.undelivered - 1 } = rest ∧ d ∉ rest := by
  have h0 : s.undelivered ≠ 0 := by
    intro e
    unfold deliveriesLeft at h
    rw [e] at h
    revert h
    have : resetOrder.drop (20 - (0 : Fin 21).val) = [] := by decide
    rw [this]
    exact fun h => nomatch h
  have hv := undelivered_pred h0
  have hlt := s.undelivered.isLt
  constructor
  · unfold deliveriesLeft at h ⊢
    have e : 20 - (s.undelivered - 1).val = 20 - s.undelivered.val + 1 := by omega
    dsimp only
    rw [e, ← List.tail_drop, h]
    rfl
  · have hn : (d :: rest).Nodup := h ▸ List.Nodup.sublist (List.drop_sublist _ _) resetOrder_nodup
    exact (List.nodup_cons.1 hn).1

/-- Nothing is left exactly where the count is 0. -/
theorem deliveriesLeft_nil {s : State} : deliveriesLeft s = [] ↔ s.undelivered = 0 := by
  unfold deliveriesLeft
  generalize s.undelivered = u
  revert u
  decide

/-- A queue's delivery is still to come when its controller's is next. -/
theorem queue_afterController {s : State} {seg : SegId} {rest : List Delivery}
    (h : deliveriesLeft s = .controller seg :: rest) : Delivery.queue seg ∈ rest := by
  have key : ∀ (u : Fin 21) (q : SegId), (resetOrder.drop (20 - u.val)).head? = some (.controller q) →
      Delivery.queue q ∈ (resetOrder.drop (20 - u.val)).tail := by decide
  have := key s.undelivered seg (by unfold deliveriesLeft at h; rw [h]; rfl)
  unfold deliveriesLeft at h
  rw [h] at this
  exact this

theorem resetReached_iff {d : Delivery} {s : State} :
    resetReached d s = true ↔ s.resetting = true ∧ d ∉ deliveriesLeft s := by
  unfold resetReached
  simp

theorem awaitsQueue_iff {seg : SegId} {s : State} :
    awaitsQueue seg s = true
      ↔ s.resetting = true ∧ Delivery.controller seg ∉ deliveriesLeft s ∧ Delivery.queue seg ∈ deliveriesLeft s := by
  unfold awaitsQueue resetReached
  cases s.resetting <;> simp

/-! ## What a delivery can change -/

/-- A controller after delivery 1 is OFFLINE, or in STOPPING with a frame or a stop attempt on the wire (R116). -/
theorem softResetCtl_cases (els : List Element) (n : Nat) (c : Controller) :
    softResetCtl els n c = offlineCtl c
      ∨ ((softResetCtl els n c).state = .stopping ∧ (softResetCtl els n c).active = none
          ∧ (softResetCtl els n c).recovery = none ∧ (softResetCtl els n c).own = c.own ∧ c.own ≠ .quiet
          ∧ (softResetCtl els n c).cfg = c.cfg ∧ (softResetCtl els n c).streak = c.streak) := by
  unfold softResetCtl
  split <;> rename_i h
  · exact .inr ⟨rfl, rfl, rfl, rfl, (by rw [h]; exact OwnWire.noConfusion), rfl, rfl⟩
  · exact .inr ⟨rfl, rfl, rfl, rfl, (by rw [h]; exact OwnWire.noConfusion), rfl, rfl⟩
  · exact .inl rfl
  · exact .inl rfl

theorem freeActiveSlot_line (seg : SegId) (s : State) : LineStep seg s (freeActiveSlot seg s) := by
  unfold freeActiveSlot
  repeat' split
  all_goals first | exact LineStep.refl _ _ | exact modSlot_line _ _ _ _

@[simp] theorem ctl_freeActiveSlot (seg q : SegId) (s : State) : ctl q (freeActiveSlot seg s) = ctl q s := by
  unfold freeActiveSlot
  repeat' split
  all_goals rfl

theorem resetController_line (seg : SegId) (s : State) : LineStep seg s (resetController seg s) := by
  have h := ((freeActiveSlot_line seg s).trans
    (modCtl_line seg (softResetCtl (frameElements seg s) (frameSoFar seg noTraffic s).passed) _)).trans
    (cutReception_line seg _)
  unfold resetController
  dsimp only
  split
  · exact h.trans (emptyQueue_line seg _)
  · exact h

/-- The controller after its delivery. -/
theorem ctl_resetController (seg : SegId) (s : State) :
    ctl seg (resetController seg s) = softResetCtl (frameElements seg s) (frameSoFar seg noTraffic s).passed (ctl seg s) := by
  have key : ctl seg (cutReception seg (modCtl seg
      (softResetCtl (frameElements seg s) (frameSoFar seg noTraffic s).passed) (freeActiveSlot seg s)))
      = softResetCtl (frameElements seg s) (frameSoFar seg noTraffic s).passed (ctl seg s) := by
    unfold cutReception
    rw [ctl_setReception, ctl_modCtl_same, ctl_freeActiveSlot]
  unfold resetController
  dsimp only
  split
  · rw [ctl_emptyQueue, key]
  · exact key

/-- A controller that is OFFLINE after its delivery has an empty queue (R116). -/
theorem queue_resetController {seg : SegId} {s : State} (h : (ctl seg (resetController seg s)).state = .offline) :
    queue seg (resetController seg s) = SegQueue.reset := by
  unfold resetController at h ⊢
  dsimp only at h ⊢
  split
  · exact queue_emptyQueue_same _ _
  · rename_i hn
    rw [if_neg hn] at h
    exact absurd h hn

/-- What a delivery leaves: the Host Port, the timebase, the command and its result, RESETTING and the deliveries left. -/
theorem takeDelivery_frame (d : Delivery) (s : State) :
    ∃ es gs qs cs sl ls rc rg ns lc fl rp nt,
      takeDelivery d s
        = { s with
            entries := es, groups := gs, queues := qs, ctls := cs, slots := sl, listen := ls, receptions := rc, ring := rg
            nextSequence := ns, lostCount := lc, flags := fl, reports := rp, notices := nt } := by
  cases d with
  | controller seg =>
    unfold takeDelivery resetController freeActiveSlot
    dsimp only
    repeat' split
    all_goals exact ⟨_, _, _, _, _, _, _, _, _, _, _, _, _, rfl⟩
  | _ => exact ⟨_, _, _, _, _, _, _, _, _, _, _, _, _, rfl⟩

/-- What the next delivery leaves of the part, RESETTING apart, which may end with it. -/
theorem nextDelivery_frame (s : State) :
    ∃ es gs qs cs sl ls rc rg ns lc fl rp nt rs ud,
      nextDelivery s
        = { s with
            entries := es, groups := gs, queues := qs, ctls := cs, slots := sl, listen := ls, receptions := rc, ring := rg
            nextSequence := ns, lostCount := lc, flags := fl, reports := rp, notices := nt, resetting := rs
            undelivered := ud } := by
  unfold nextDelivery
  split
  · exact ⟨_, _, _, _, _, _, _, _, _, _, _, _, _, _, _, rfl⟩
  · rename_i d _ _
    split
    · obtain ⟨_, _, _, _, _, _, _, _, _, _, _, _, _, h⟩ := takeDelivery_frame d { s with undelivered := s.undelivered - 1 }
      rw [h]
      unfold checkResettingEnd
      split <;> exact ⟨_, _, _, _, _, _, _, _, _, _, _, _, _, _, _, rfl⟩
    · exact ⟨_, _, _, _, _, _, _, _, _, _, _, _, _, _, _, rfl⟩

/-- The next delivery in a soft reset in progress. -/
theorem nextDelivery_eq {s : State} {d : Delivery} {rest : List Delivery} (hr : s.resetting = true)
    (h : deliveriesLeft s = d :: rest) :
    nextDelivery s = checkResettingEnd (takeDelivery d { s with undelivered := s.undelivered - 1 }) := by
  unfold nextDelivery
  rw [h, hr]
  rfl

/-- Where no delivery is left, or no soft reset is in progress, none is taken. -/
theorem nextDelivery_idle {s : State} (h : s.resetting = false ∨ s.undelivered = 0) : nextDelivery s = s := by
  unfold nextDelivery
  split
  · rfl
  · rename_i hd
    rcases h with h | h
    · rw [h]; rfl
    · rw [deliveriesLeft_nil.2 h] at hd; cases hd

/-! ## The result word beside the deliveries -/

theorem freeActiveSlot_result (seg : SegId) (r : ResultWord) (s : State) :
    freeActiveSlot seg { s with result := r } = { freeActiveSlot seg s with result := r } := by
  have hc : ctl seg { s with result := r } = ctl seg s := rfl
  unfold freeActiveSlot
  rw [hc]
  repeat' split
  all_goals rfl

/-- No delivery reads or writes the result word. -/
theorem takeDelivery_result (d : Delivery) (r : ResultWord) (s : State) :
    takeDelivery d { s with result := r } = { takeDelivery d s with result := r } := by
  cases d with
  | controller seg =>
    have h : ∀ a : State,
        (if (ctl seg a).state = .offline then emptyQueue seg { a with result := r } else { a with result := r })
          = { (if (ctl seg a).state = .offline then emptyQueue seg a else a) with result := r } := by
      intro a
      split <;> rfl
    unfold takeDelivery resetController
    dsimp only
    rw [freeActiveSlot_result]
    exact h (cutReception seg (modCtl seg (softResetCtl (frameElements seg s) (frameSoFar seg noTraffic s).passed)
      (freeActiveSlot seg s)))
  | _ => rfl

theorem nextDelivery_result (r : ResultWord) (s : State) :
    nextDelivery { s with result := r } = { nextDelivery s with result := r } := by
  have hend : ∀ u : State, checkResettingEnd { u with result := r } = { checkResettingEnd u with result := r } := by
    intro u
    have hc : ∀ q, ctl q { u with result := r } = ctl q u := fun _ => rfl
    unfold checkResettingEnd
    simp only [hc]
    split <;> rfl
  have hl : deliveriesLeft { s with result := r } = deliveriesLeft s := rfl
  unfold nextDelivery
  rw [hl]
  split
  · rfl
  · rename_i d _ _
    dsimp only
    split
    · exact (congrArg checkResettingEnd (takeDelivery_result d r { s with undelivered := s.undelivered - 1 })).trans (hend _)
    · rfl

/-- The deliveries that follow SOFT_RESET leave the result word it has written (R149). -/
theorem nextDeliveries_result (n : Nat) (r : ResultWord) (s : State) :
    nextDeliveries n { s with result := r } = { nextDeliveries n s with result := r } := by
  induction n generalizing s with
  | zero => rfl
  | succ n ih =>
    show nextDeliveries n (nextDelivery { s with result := r }) = { nextDeliveries n (nextDelivery s) with result := r }
    rw [nextDelivery_result, ih]

/-! ## What every delivery keeps -/

/-- A property of the part that a report to the Command Port and the count of deliveries do not touch is kept by the next
delivery where every delivery keeps it. -/
theorem nextDelivery_keeps {P : State → Prop} {s : State} (hs : P s) (hend : ∀ t, P t → P (checkResettingEnd t))
    (h : ∀ d rest, s.resetting = true → deliveriesLeft s = d :: rest →
      P (takeDelivery d { s with undelivered := s.undelivered - 1 })) : P (nextDelivery s) := by
  cases hr : s.resetting
  · rw [nextDelivery_idle (.inl hr)]; exact hs
  · cases hl : deliveriesLeft s with
    | nil => rw [nextDelivery_idle (.inr (deliveriesLeft_nil.1 hl))]; exact hs
    | cons d rest => rw [nextDelivery_eq hr hl]; exact hend _ (h d rest hr hl)

/-- R60, R70: a delivery keeps the bounds of the queues. -/
theorem nextDelivery_queuesBounded {s : State} (hs : QueuesBounded s) : QueuesBounded (nextDelivery s) := by
  refine nextDelivery_keeps hs (fun t ht => (checkResettingEnd_line 0 t).bounded ht) fun d rest _ _ => ?_
  cases d with
  | controller seg => exact (resetController_line seg { s with undelivered := s.undelivered - 1 }).bounded hs
  | queue seg => exact (emptyQueue_line seg { s with undelivered := s.undelivered - 1 }).bounded hs
  | _ => exact hs

/-- R135, R137: a delivery keeps the bound and the order of the ring. -/
theorem nextDelivery_ring {s : State} (hs : RingBounded s ∧ RingInOrder s) :
    RingBounded (nextDelivery s) ∧ RingInOrder (nextDelivery s) := by
  refine nextDelivery_keeps (P := fun t => RingBounded t ∧ RingInOrder t) hs
    (fun t ht => ⟨(checkResettingEnd_line 0 t).ring ht.1, ?_⟩) fun d rest _ _ => ?_
  · unfold checkResettingEnd
    split <;> exact ht.2
  · cases d with
    | controller seg =>
      refine ⟨(resetController_line seg { s with undelivered := s.undelivered - 1 }).ring hs.1, ?_⟩
      obtain ⟨_, _, _, _, _, _, _, h⟩ := (resetController_line seg { s with undelivered := s.undelivered - 1 }).frame
      show RingInOrder (resetController seg _)
      rw [h]
      exact hs.2
    | listen =>
      have hr : ∀ q, reception q (resetListen { s with undelivered := s.undelivered - 1 }) = none := fun q => by
        unfold reception resetListen
        rw [getAt_tabulate]
      refine ⟨⟨?_, fun q r h => ?_⟩, fun i h => absurd h (Nat.not_lt_zero i)⟩
      · have h0 : reservedCount (resetListen { s with undelivered := s.undelivered - 1 }) = 0 := by
          rw [reservedCount_eq]
          simp only [hr, holdsPlace, Bool.toNat_false]
          decide
        show 0 + reservedCount (resetListen { s with undelivered := s.undelivered - 1 }) ≤ _
        rw [h0]
        exact Nat.zero_le _
      · rw [show reception q (takeDelivery .listen _) = none from hr q] at h
        cases h
    | _ => exact hs

/-- A delivery to another block leaves whether a segment's queue is still to be emptied. -/
theorem awaits_delivered {seg : SegId} {s : State} {d : Delivery} {rest : List Delivery} (h : deliveriesLeft s = d :: rest)
    (hc : d ≠ .controller seg) (hq : d ≠ .queue seg) :
    awaitsQueue seg { s with undelivered := s.undelivered - 1 } = awaitsQueue seg s := by
  rw [Bool.eq_iff_iff, awaitsQueue_iff, awaitsQueue_iff, (deliveriesLeft_next h).1, h]
  simp [List.mem_cons, Ne.symm hc, Ne.symm hq]

/-- R93, R116, R73 (Table 6.1): a delivery keeps what a controller's state allows. -/
theorem nextDelivery_controllers {s : State} (hs : ControllersOk s) : ControllersOk (nextDelivery s) := by
  refine nextDelivery_keeps hs (fun t ht q => ?_) fun d rest hr hl => ?_
  · rw [(checkResettingEnd_line 0 t).awaits, ctl_checkResettingEnd, queue_checkResettingEnd]
    exact ht q
  · obtain ⟨hrest, hd⟩ := deliveriesLeft_next hl
    have keep : ∀ (t : State) (q : SegId), t.resetting = s.resetting → t.undelivered = s.undelivered - 1 →
        d ≠ .controller q → d ≠ .queue q → ctl q t = ctl q s → queue q t = queue q s →
        ControllerOk (awaitsQueue q t) (ctl q t) (queue q t) := by
      intro t q h1 h2 hc hq h3 h4
      rw [h3, h4, awaits_congr (s := { s with undelivered := s.undelivered - 1 }) h1 h2, awaits_delivered hl hc hq]
      exact hs q
    obtain ⟨_, _, _, _, _, _, _, _, _, _, _, _, _, hf⟩ := takeDelivery_frame d { s with undelivered := s.undelivered - 1 }
    have hres : (takeDelivery d { s with undelivered := s.undelivered - 1 }).resetting = s.resetting := by rw [hf]
    have hund : (takeDelivery d { s with undelivered := s.undelivered - 1 }).undelivered = s.undelivered - 1 := by rw [hf]
    clear hf
    intro q
    cases d with
    | controller seg =>
      have hline := resetController_line seg { s with undelivered := s.undelivered - 1 }
      by_cases hq : q = seg
      · subst hq
        have hw : awaitsQueue q (takeDelivery (.controller q) { s with undelivered := s.undelivered - 1 }) = true := by
          rw [awaits_congr (s := { s with undelivered := s.undelivered - 1 }) hres hund, awaitsQueue_iff, hrest]
          exact ⟨hr, hd, queue_afterController hl⟩
        rw [hw]
        show ControllerOk true (ctl q (resetController q { s with undelivered := s.undelivered - 1 }))
          (queue q (resetController q { s with undelivered := s.undelivered - 1 }))
        rcases softResetCtl_cases (frameElements q { s with undelivered := s.undelivered - 1 })
          (frameSoFar q noTraffic { s with undelivered := s.undelivered - 1 }).passed
          (ctl q { s with undelivered := s.undelivered - 1 }) with e | e
        · have hoff : (ctl q (resetController q { s with undelivered := s.undelivered - 1 })).state = .offline := by
            rw [ctl_resetController, e]; rfl
          rw [queue_resetController hoff, ctl_resetController, e]
          exact controllerOk_offline rfl rfl
        · rw [ctl_resetController]
          obtain ⟨e1, e2, e3, -, -, -, -⟩ := e
          refine ⟨fun _ => .inl ⟨e1, rfl⟩, fun _ => e2, fun h => ?_, fun _ => .inr e1, fun h => absurd e3 h⟩
          rw [e1] at h
          cases h
      · exact keep _ q hres hund (fun e => hq (by cases e; rfl)) (fun e => nomatch e) (hline.ctlNe q hq)
          (hline.queueNe q hq)
    | queue seg =>
      by_cases hq : q = seg
      · subst hq
        obtain ⟨-, h2, h3, h4, h5⟩ := hs q
        show ControllerOk _ (ctl q (emptyQueue q _)) (queue q (emptyQueue q _))
        rw [queue_emptyQueue_same]
        exact ⟨fun _ => .inr ⟨rfl, rfl⟩, h2, h3, h4, h5⟩
      · exact keep _ q hres hund (fun e => nomatch e) (fun e => hq (by cases e; rfl)) rfl
          (queue_emptyQueue_ne { s with undelivered := s.undelivered - 1 } hq)
    | _ => exact keep _ q hres hund (fun e => nomatch e) (fun e => nomatch e) rfl rfl

/-- R103: a delivery keeps the streaks below their thresholds; an OFFLINE segment has streak 0. -/
theorem nextDelivery_streaks {s : State} (hc : ControllersOk s) (hs : StreaksOk s) : StreaksOk (nextDelivery s) := by
  refine nextDelivery_keeps hs (fun t ht q => ?_) fun d rest _ _ => ?_
  · rw [ctl_checkResettingEnd]
    exact ht q
  · intro q
    cases d with
    | controller seg =>
      by_cases hq : q = seg
      · subst hq
        show StreakOk (ctl q (resetController q { s with undelivered := s.undelivered - 1 }))
        rw [ctl_resetController]
        rcases softResetCtl_cases (frameElements q { s with undelivered := s.undelivered - 1 })
          (frameSoFar q noTraffic { s with undelivered := s.undelivered - 1 }).passed
          (ctl q { s with undelivered := s.undelivered - 1 }) with e | e
        · rw [e]; exact streakOk_offline _
        · obtain ⟨e1, -, -, -, e5, e6, e7⟩ := e
          have hown := (hc q).2.2.2.1 e5
          have hon : Online (ctl q s) := online_of_streakOk (hs q)
            (fun h => by rcases hown with o | o <;> rw [o] at h <;> cases h)
            (fun h => by rcases hown with o | o <;> rw [o] at h <;> cases h)
          exact (hon.same e6 e7 (by rw [e1]; exact fun h => nomatch h)).ok
      · show StreakOk (ctl q (resetController seg { s with undelivered := s.undelivered - 1 }))
        rw [(resetController_line seg { s with undelivered := s.undelivered - 1 }).ctlNe q hq]
        exact hs q
    | _ => exact hs q

end Sys2Proof.Machine
end

