-- ==== Sys2Proof/Laws/Signalling.lean ====
section
/-! SUPPORT. What passing traffic can change: a report of a segment's lines touches one controller, and there only what the
signalling keeps of the frame or the reception in progress; a tick adds the advance of the timebase; and no byte of a frame
passes beyond where it ends. -/

namespace Sys2Proof.Machine

open Sys2Proof.Safety

/-- A controller is the same but for what the signalling keeps of a frame, its stop attempt or a reception (R92). -/
def SameControl (c d : Controller) : Prop :=
  d = { c with
        traffic := d.traffic, holdSince := d.holdSince, rx := d.rx, rxCount := d.rxCount, overran := d.overran
        acksGiven := d.acksGiven, checkValue := d.checkValue, byteInProgress := d.byteInProgress, bitCount := d.bitCount
        stopReleased := d.stopReleased }

theorem SameControl.refl (c : Controller) : SameControl c c := rfl

theorem SameControl.trans {c d e : Controller} (h : SameControl c d) (k : SameControl d e) : SameControl c e := by
  cases c; cases d; cases e
  simp only [SameControl, Controller.mk.injEq] at h k ⊢
  simp_all

/-- What Table 6.1 asks of a controller does not look at the signalling. -/
theorem SameControl.ok {w : Bool} {c d : Controller} {q : SegQueue} (h : SameControl c d) (k : ControllerOk w c q) :
    ControllerOk w d q := by
  rw [h]
  exact k

theorem SameControl.streak {c d : Controller} (h : SameControl c d) (k : StreakOk c) : StreakOk d := by
  rw [h]
  exact k

theorem receiveBytes_same (bytes : List Byte) (c : Controller) : SameControl c (receiveBytes bytes c) := rfl

/-- At most 32 data bytes of a reception are stored (R91). -/
theorem receiveBytes_count (bytes : List Byte) (c : Controller) : (receiveBytes bytes c).rxCount ≤ Config.receptionBytes :=
  Nat.min_le_right _ _

@[simp] theorem receiveBytes_state (bytes : List Byte) (c : Controller) : (receiveBytes bytes c).state = c.state := rfl

/-- A report changes only its segment's controller, and there only what the signalling keeps. -/
theorem takeLineReport_cases (s : State) (w : LineReport) :
    ∃ c, SameControl (ctl w.seg s) c ∧ takeLineReport s w = modCtl w.seg (fun _ => c) s := by
  have hid : s = modCtl w.seg (fun _ => ctl w.seg s) s := (modCtl_id _ _).symm
  have hm : ∀ f : Controller → Controller, SameControl (ctl w.seg s) (f (ctl w.seg s)) →
      ∃ c, SameControl (ctl w.seg s) c ∧ modCtl w.seg f s = modCtl w.seg (fun _ => c) s := fun f h => ⟨_, h, rfl⟩
  have hs : ∃ c, SameControl (ctl w.seg s) c ∧ s = modCtl w.seg (fun _ => c) s := ⟨_, .refl _, hid⟩
  unfold takeLineReport frameAdvances stopAttemptAdvances receptionAdvances observedByteAdvances
  split
  · split
    · exact hs
    · exact hm _ rfl
  · exact hm _ rfl
  all_goals
    split
    · exact hm _ rfl
    · split
      · exact hm _ rfl
      · exact hs
    all_goals exact hs

theorem takeLineReport_line (s : State) (w : LineReport) : LineStep w.seg s (takeLineReport s w) := by
  obtain ⟨c, _, h⟩ := takeLineReport_cases s w
  rw [h]
  exact modCtl_line _ _ _

theorem takeLineReport_same (s : State) (w : LineReport) (q : SegId) : SameControl (ctl q s) (ctl q (takeLineReport s w)) := by
  obtain ⟨c, hc, h⟩ := takeLineReport_cases s w
  rw [h]
  by_cases hq : q = w.seg
  · subst hq; rw [ctl_modCtl_same]; exact hc
  · rw [ctl_modCtl_ne _ _ _ hq]; exact .refl _

/-- Reports change controllers, and there only what the signalling keeps. -/
theorem takeLineReports_same (ws : List LineReport) (s : State) :
    (∃ cs, linesPass ws s = { s with ctls := cs }) ∧ ∀ q, SameControl (ctl q s) (ctl q (linesPass ws s)) := by
  induction ws generalizing s with
  | nil => exact ⟨⟨_, rfl⟩, fun _ => .refl _⟩
  | cons w ws ih =>
    obtain ⟨⟨cs, h⟩, k⟩ := ih (takeLineReport s w)
    obtain ⟨c, _, hw⟩ := takeLineReport_cases s w
    refine ⟨⟨cs, ?_⟩, fun q => (takeLineReport_same s w q).trans (k q)⟩
    show linesPass ws (takeLineReport s w) = _
    rw [h, hw]
    rfl

@[simp] theorem linesPass_nil (s : State) : linesPass [] s = s := rfl

@[simp] theorem inReset_linesPass (ws : List LineReport) (s : State) : (linesPass ws s).inReset = s.inReset := by
  obtain ⟨⟨_, h⟩, _⟩ := takeLineReports_same ws s
  rw [h]

@[simp] theorem resetting_linesPass (ws : List LineReport) (s : State) : (linesPass ws s).resetting = s.resetting := by
  obtain ⟨⟨_, h⟩, _⟩ := takeLineReports_same ws s
  rw [h]

/-! ## The frame up to where it ends (R85) -/

/-- A frame passes no more byte periods than it has elements. -/
theorem passed_runElements (els : List Element) (t : Traffic) (r : FrameRun) :
    (runElements els t r).passed ≤ r.passed + els.length := by
  have hp : ∀ (e : Element) (b : Byte) (x : FrameRun), (x.pass e b).passed = x.passed + 1 := fun _ _ _ => rfl
  have ha : ∀ (e : Element) (x : FrameRun), (x.acknowledged e).passed = x.passed := fun e x => by cases e <;> rfl
  have hr : ∀ (e : Element) (b : Byte) (k : Bool) (x : FrameRun), (x.read e b k).passed = x.passed := fun e b k x => by
    cases e <;> rfl
  induction els generalizing t r with
  | nil => exact Nat.le_refl _
  | cons e rest ih =>
    unfold runElements
    repeat' split
    all_goals rw [List.length_cons]
    all_goals first
      | (refine (ih _ _).trans ?_; simp only [ha, hr, hp]; omega)
      | (simp only [hp]; omega)
      | (dsimp only; omega)

/-- With an early end requested no byte passes beyond the boundary at which the frame ends. -/
theorem passed_frameSoFar (q : SegId) (w : Traffic) (n : Nat) (s : State) (h : (ctl q s).earlyEnd = some n) :
    (frameSoFar q w s).passed ≤ n := by
  have hl : (frameToEnd q s).length ≤ n := by
    unfold frameToEnd
    rw [h]
    exact List.length_take_le n _
  exact (passed_runElements _ _ .start).trans ((Nat.zero_add _).trans_le hl)

/-- A tick advances the timebase by one and changes nothing else but what the signalling keeps (R27). -/
theorem tick_frame (ws : List LineReport) (s : State) :
    (∃ cs, tick ws s = { s with ctls := cs, timebase := s.timebase + 1#32 })
      ∧ ∀ q, SameControl (ctl q s) (ctl q (tick ws s)) := by
  obtain ⟨⟨cs, h⟩, k⟩ := takeLineReports_same ws s
  refine ⟨⟨cs, ?_⟩, k⟩
  unfold tick
  rw [h]

/-- A tick without reports is the advance of the timebase alone (R27). -/
theorem tick_nil (s : State) : tick [] s = { s with timebase := s.timebase + 1#32 } := rfl

end Sys2Proof.Machine
end

