-- ==== Sys2Proof/Tests/Slice0.lean ====
section
/-! SUPPORT. Tests on small states: the well-formedness checks, values the spec writes out, and for every statement with
hypotheses a state and operands that meet them, clause by clause. -/

namespace Sys2Proof.Tests

open Sys2Proof.Machine Sys2Proof.Safety Sys2Proof.Spec

/-! ## Small states -/

/-- An ungrouped READ_WRITE entry with verify on, address 50h, 2 bytes, period 5, settle delay 3. -/
def cfgU : EntryConfig :=
  { segment := 0#3, address := 0x50#7, offsetWidth := 1#2, mode := 2#2, group := 0#4, length := 2#6, checkCode := false
    verify := true, registerOffset := 0x0110#16, period := 5#16, settleDelay := 3#8 }

/-- A member of group 1 in mode READ. -/
def cfgG : EntryConfig := { cfgU with mode := 0#2, group := 1#4, verify := false, period := 0#16 }

/-- Reset with entry 0 ENABLED under a configuration, then changed. -/
def ent (c : EntryConfig) (f : Entry → Entry) : State :=
  modEntry 0 (fun x => f { x with cfg := c, enable := .enabled }) State.reset

/-- Segment 0 in IDLE with the bus FREE, then changed. -/
def on (f : Controller → Controller) (s : State) : State :=
  modCtl 0 (fun c => f { c with state := .idle, bus := .free }) s

/-- A waiting job. -/
def job (r : JobRef) (cls : JobClass) : Job := { ref := r, cls := cls, tag := none, attempts := 0#3 }

/-- An active job whose start report has been taken. -/
def act (r : JobRef) (f : FrameInUse) (p : JobPhase) : ActiveJob :=
  { job := job r .urgent, frame := f, started := true, phase := p, last := none, abortPending := false }

/-- Segment 0 in a state with a job, and what the part does on the wire. -/
def hold (st : CtlState) (a : ActiveJob) (own : OwnWire) (s : State) : State :=
  on (fun c => { c with state := st, active := some a, own := own }) s

/-- The state at a timebase value. -/
def clock (t : Word) (s : State) : State := { s with timebase := t }

/-- Segment 0's queue with jobs waiting. -/
def waiting (u r : List Job) (n : Nat) (s : State) : State := setQueue 0 { urgent := u, routine := r, streak := n } s

/-- The state after one command. -/
def after (i : Instr) (s : State) : State :=
  match exec i s with
  | .next t => t
  | .fault _ | .refused _ => s

/-- A completion of a job on segment 0. -/
def comp (r : JobRef) (tag : Option GroupId) (x : Result) (bytes : List Byte) : Completion :=
  { ref := r, tag := tag, seg := 0, result := x, bytes := bytes, acked := 0#6, received := 2#6, attemptsUsed := 1#4 }

/-- One report in flight. -/
def flying (r : Report) (s : State) : State := { s with reports := [r] }

/-- Both lines high, and the other levels. -/
def high : Lines := { scl := true, sda := true }
def clockLow : Lines := { scl := false, sda := true }
def dataLow : Lines := { scl := true, sda := false }
def senseHigh : RecoverySense := { check := high, afterStop := high }

/-- The traffic of a refresh read of cfgU that is acknowledged throughout. -/
def goodRead : Traffic := { acks := [true, true, true], reads := [0xAA#8, 0x55#8] }

/-- The traffic of a write frame of cfgU. -/
def goodWrite : Traffic := { acks := [true, true, true, true], reads := [] }

/-- Segment 0 has a WRITE frame of entry 0 running since time 0. -/
def writing (st : CtlState) : State := hold st (act (.write 0) .writeFrame .running) (.frame 0#32) (ent cfgU id)

/-- A report of segment 0: traffic, the bits of the byte in progress, a clock line found held. -/
def report (wire : Traffic) (bits : List Bool) (held : Bool) : LineReport :=
  { seg := 0, traffic := wire, bits := bits, clockHeld := held }

/-- Without a clock-hold none has lasted too long. -/
theorem notHeld {q : SegId} {s : State} (h : (ctl q s).holdSince = none) : ¬HeldTooLong q s := by
  rintro ⟨_, k, _⟩
  rw [h] at k
  cases k

/-- Segment 0 in RECEIVING with a CAPTURE_REFRESH reception, then changed. -/
def receivingWith (f : Controller → Controller) : State :=
  setReception 0 (some { listenIndex := 0, address := 0x20#7, action := .captureRefresh, reserved := true })
    (on (fun c => f { c with state := .receiving, bus := .busy }) State.reset)

/-- Slot 0 in a state, with a WRITE descriptor of one byte on segment 0. -/
def slotIn (st : SlotState) (s : State) : State :=
  modSlot 0 (fun x => { x with state := st, kind := 1#3, writeCount := 1#6 }) s

/-! ## Well-formedness: one ill-formed term for each check -/

theorem test_illFormed_knownCode : wellFormed (.unknownCommand 0x7F#8 0#8 0#16) = false := by decide
theorem test_illFormed_unalignedWrite : wellFormed (.hostWrite 0x0801#14 0xF#4 0#32) = false := by decide
theorem test_illFormed_rowOfItsOwn : wellFormed (.hostWrite 0x2FFC#14 0xF#4 0#32) = false := by decide
theorem test_illFormed_fullCommandWrite : wellFormed (.hostWrite 0x0008#14 0xF#4 0#32) = false := by decide
theorem test_illFormed_mappedRead : wellFormed (.unmappedRead 0x2FFC#14) = false := by decide
theorem test_illFormed_unalignedRead : wellFormed (.unmappedRead 0x3001#14) = false := by decide
theorem test_illFormed_tickNineBits :
    wellFormed (.timebaseTick [report noTraffic (List.replicate 9 true) false]) = false := by decide
theorem test_illFormed_tickSegmentTwice :
    wellFormed (.timebaseTick [report noTraffic [] true, report noTraffic [true] false]) = false := by decide
theorem test_illFormed_cancelAndResetReports :
    wellFormed (.slotCancel 0#8 0#16 [report noTraffic (List.replicate 9 true) false]) = false
      ∧ wellFormed (.softReset 0#8 0#16 [report noTraffic [] true, report noTraffic [true] false]) = false := by decide
theorem test_wellFormed_otherTerms :
    wellFormed (.unknownCommand 0#8 0#8 0#16) = true ∧ wellFormed (.hostWrite 0x0800#14 0xF#4 0#32) = true
      ∧ wellFormed (.hostWrite 0x0008#14 0x7#4 0#32) = true ∧ wellFormed (.hostWrite 0x3FFC#14 0xF#4 0#32) = true
      ∧ wellFormed (.unmappedRead 0x3000#14) = true ∧ wellFormed .pinReset = true
      ∧ wellFormed (.timebaseTick [report goodRead (List.replicate 8 true) false]) = true := by decide

/-! ## Values the spec writes out -/

/-- Section 5.8: the running value over an address byte 40h and a data byte 01h. -/
theorem test_checkCode_bytes : crcByte 0#8 0x40#8 = 0xC7#8 ∧ crcByte 0xC7#8 0x01#8 = 0x5C#8 := by decide

/-- Table 10.2: the edges of the address map. -/
theorem test_addressMap_edges :
    locate 0x0034#14 = some (.global .detail1) ∧ locate 0x0038#14 = none ∧ locate 0x0040#14 = some (.faultBitmap 0)
      ∧ locate 0x004C#14 = some (.faultBitmap 3) ∧ locate 0x0050#14 = none ∧ locate 0x01EC#14 = some (.segQueue 7)
      ∧ locate 0x02FC#14 = some (.groupPublish 14) ∧ locate 0x0304#14 = some (.listenEnable 0)
      ∧ locate 0x04E8#14 = some (.slotStatus 7) ∧ locate 0x06FC#14 = some (.slotData 7 15)
      ∧ locate 0x072C#14 = some (.headData 7) ∧ locate 0x0730#14 = none ∧ locate 0x0FFC#14 = some (.entrySettle 127)
      ∧ locate 0x1FFC#14 = some (.published 127 7) ∧ locate 0x2FFC#14 = some (.staging 127 7)
      ∧ locate 0x3000#14 = none ∧ locate 0x3FFC#14 = none := by decide

/-- Table 10.3: the part word, and a result word with code, outcome, reason and tag in place. -/
theorem test_globalWords :
    hostReadValue 0x0000#14 State.reset = 0x00018128#32
      ∧ hostReadValue 0x000C#14 (after (.unknownCommand 0x99#8 3#8 0xBEEF#16) State.reset) = 0xBEEF0699#32 := by decide

/-- Table 6.3: the reset values of a segment's configuration words. -/
theorem test_segmentDefaults :
    hostReadValue 0x0100#14 State.reset = 0x00010420#32 ∧ hostReadValue 0x0104#14 State.reset = 0x00003214#32 := by
  decide

/-- Section 4.9: URGENT 4 times while a ROUTINE job waits, then the ROUTINE head. -/
theorem test_starvationGuard :
    (arbiter { urgent := [job (.write 1) .urgent], routine := [job (.refresh 0) .routine], streak := 3 }).map
        (fun r => (r.1.ref, r.2.streak)) = some (.write 1, 4)
      ∧ (arbiter { urgent := [job (.write 1) .urgent], routine := [job (.refresh 0) .routine], streak := 4 }).map
        (fun r => (r.1.ref, r.2.streak)) = some (.refresh 0, 0) := by decide

/-- Section 4.10: at 24 jobs a ROUTINE request is refused FULL and an URGENT one is admitted; at 32 none is. -/
theorem test_admissionLimits :
    answerOf 0 .routine (waiting (List.replicate 24 (job (.write 1) .urgent)) [] 0 (on id State.reset)) = .full
      ∧ answerOf 0 .routine (waiting (List.replicate 23 (job (.write 1) .urgent)) [] 0 (on id State.reset)) = .admitted
      ∧ answerOf 0 .urgent (waiting (List.replicate 31 (job (.write 1) .urgent)) [] 0 (on id State.reset)) = .admitted
      ∧ answerOf 0 .urgent (waiting (List.replicate 32 (job (.write 1) .urgent)) [] 0 (on id State.reset)) = .full
      ∧ answerOf 0 .urgent State.reset = .down := by decide

/-! ## One step on a small state -/

/-- A refresh frame of cfgU that ends well completes OK with the bytes read, and the controller is IDLE. -/
theorem test_frameEnd_refresh :
    let t := after (.frameEnd 0 goodRead) (hold .active (act (.refresh 0) .refreshRead .running) (.frame 0#32) (ent cfgU id))
    t.reports = [.completed
      { ref := .refresh 0, tag := none, seg := 0, result := .ok, bytes := [0xAA#8, 0x55#8], acked := 0#6, received := 2#6
        attemptsUsed := 1#4 }]
      ∧ (ctl 0 t).state = .idle ∧ (ctl 0 t).active = none ∧ (ctl 0 t).bus = .free := by decide

/-- A verified write frame that ends well goes to its settle delay. -/
theorem test_frameEnd_settle :
    let t := after (.frameEnd 0 goodWrite) (writing .active)
    (ctl 0 t).state = .settle ∧ (ctl 0 t).lastResult = .ok ∧ t.reports = [] := by decide

/-- A refused data byte is DATA_REFUSED with the count of those acknowledged before it. -/
theorem test_frameEnd_dataRefused :
    let t := after (.frameEnd 0 { acks := [true, true, true, false], reads := [] }) (writing .active)
    (t.reports.map fun r => match r with | .completed c => (c.result, c.acked) | .started _ => (.noneRecorded, 0#6))
      = [(.dataRefused, 1#6)] := by decide

/-- In STOPPING a verified write frame that ended OK completes FLUSHED with its counts and attempts used (R107). -/
theorem test_frameEnd_stoppingFlushed :
    ((after (.frameEnd 0 goodWrite) (writing .stopping)).reports.map fun r => match r with
      | .completed c => (c.result, c.acked, c.attemptsUsed)
      | .started _ => (.noneRecorded, 0#6, 0#4)) = [(.flushed, 2#6, 1#4)] := by decide

/-- A verify read that ends CHECK_MISMATCH with no retry left carries the bytes read (R107). -/
theorem test_verifyRead_carriesBytes :
    completionBytes (act (.write 0) .verifyRead .running)
        { result := .checkMismatch, acked := 0#6, received := 2#6, bytes := [1#8, 2#8] } (ctl 0 (writing .active)).tx
        (writing .active) = [1#8, 2#8] := by decide

/-- Reports of a tick: the bytes that passed, the running value of section 5.8 over A0h and 10h, and the first bits of the next
byte, here the repeated start's address A1h. -/
theorem test_tick_frameAdvances :
    let t := after (.timebaseTick [report { acks := [true, true], reads := [] } [true, false, true] false])
      (hold .active (act (.refresh 0) .refreshRead .running) (.frame 0#32) (ent cfgU id))
    (ctl 0 t).traffic.acks = [true, true] ∧ (ctl 0 t).checkValue = crcByte (crcByte 0#8 0xA0#8) 0x10#8
      ∧ (ctl 0 t).byteInProgress = 0xA0#8 ∧ (ctl 0 t).bitCount = 3 ∧ (ctl 0 t).holdSince = none ∧ t.timebase = 1#32 := by
  decide +kernel

/-- A clock-hold is measured from its release: found at time 100 of a frame begun at 0, it ends the frame at 120 and not at 119
(R79, hold limit 20). -/
theorem test_hold_fromItsRelease :
    let s := after (.timebaseTick [report noTraffic [] true]) (clock 100#32 (writing .active))
    (ctl 0 s).holdSince = some 100#32 ∧ (ctl 0 (after (.holdTimeout 0 noTraffic) (clock 119#32 s))).own = .frame 0#32
      ∧ (ctl 0 (after (.holdTimeout 0 noTraffic) (clock 120#32 s))).own = .stopAttempt 120#32
      ∧ (ctl 0 (after (.holdTimeout 0 noTraffic) (clock 120#32 s))).lastResult = .holdTimeout := by decide

/-- Arbitration lost at the third bit of address byte A0h keeps 100b of it, and the winner's byte is completed after them (R81);
at the second bit, a 0, nothing is compared. -/
theorem test_loss_keepsTheBits :
    let s := after (.arbitrationLoss 0 noTraffic (.bit 2)) (writing .active)
    (ctl 0 s).state = .foreign ∧ (ctl 0 s).byteInProgress = 0x80#8 ∧ (ctl 0 s).bitCount = 3
      ∧ (ctl 0 s).addressExpected = true ∧ (ctl 0 (after (.addressByteDecision 0 0xFF#8) s)).byteInProgress = 0x9F#8
      ∧ ctl 0 (after (.arbitrationLoss 0 noTraffic (.bit 1)) (writing .active)) = ctl 0 (writing .active) := by decide +kernel

/-- Arbitration lost at the fourth bit of offset byte 10h, its first 1: the winner's bits complete the byte (R81); no loss can be
sensed at a release within a byte, and no early end taken there (R85). -/
theorem test_loss_completesTheByte :
    let one : Traffic := { acks := [true], reads := [] }
    let s := after (.arbitrationLoss 0 one (.bit 3)) (writing .active)
    let t := after (.timebaseTick [report noTraffic [true, true, true, true, false, true, true, true] false]) s
    let mid := modCtl 0 (fun c => { c with earlyEnd := some 2 })
      (after (.timebaseTick [report one [false, false] false]) (writing .active))
    (ctl 0 s).byteInProgress = 0#8 ∧ (ctl 0 s).bitCount = 4 ∧ (ctl 0 s).addressExpected = false
      ∧ (ctl 0 t).byteInProgress = 0x07#8 ∧ (ctl 0 t).bitCount = 8 ∧ (ctl 0 mid).bitCount = 2
      ∧ ctl 0 (after (.arbitrationLoss 0 noTraffic .release) mid) = ctl 0 mid
      ∧ ctl 0 (after (.frameEndedEarly 0 noTraffic) mid) = ctl 0 mid := by decide +kernel

/-- A stop attempt releases its data line once a tick finds the clock line high, and keeps it low until then (R106). -/
theorem test_stopAttempt_releasesData :
    let s := hold .active (act (.write 0) .writeFrame .running) (.stopAttempt 0#32) (ent cfgU id)
    driven 0 (after (.timebaseTick [report noTraffic [] true]) s) = (.released, .low)
      ∧ driven 0 (after (.timebaseTick [report noTraffic [] false]) s) = (.released, .released) := by decide

/-- 33 data bytes: 32 are stored and acknowledged, the 33rd is refused (R91). -/
theorem test_reception_thirtyThirdByte :
    let c := ctl 0 (after (.timebaseTick [report { acks := [], reads := List.replicate 33 7#8 } [] false]) (receivingWith id))
    c.rxCount = 32 ∧ c.overran = true ∧ c.acksGiven = List.replicate 32 true ++ [false]
      ∧ driven 0 (receivingWith fun _ => { c with bitCount := 8 }) = (.released, .released)
      ∧ driven 0 (receivingWith fun _ => { c with bitCount := 8, rxCount := 31 }) = (.released, .low) := by decide

/-- An entry that reaches DISABLED has write state NONE (R3). -/
theorem test_disabled_writeNone :
    (entry 0 (after (.entryDisable 0#8 1#16) (ent { cfgU with group := 0#4 } fun x => { x with write := .failed }))).write
      = .none := by decide

/-- A refresh completion publishes the bytes at the present time. -/
theorem test_refreshCompletion_publishes :
    let t := after (.refreshCompletion 0) (clock 9#32 (flying (.completed (comp (.refresh 0) none .ok [0xAA#8, 0x55#8]))
      (ent cfgU fun x => { x with refresh := .active })))
    (entry 0 t).validity = .fresh ∧ (entry 0 t).publishSeq = 1#16 ∧ (entry 0 t).publishTime = 9#32
      ∧ wordAt (entry 0 t).published 0 = 0x000055AA#32 ∧ (entry 0 t).refresh = .idle := by decide

/-- Section 2.10: a failed member tears the sweep, which waits for the member still outstanding. -/
theorem test_memberCompletion_tears :
    let t := after (.memberRefreshCompletion 0)
      (modGroup 0 (fun g => { g with state := .sweeping, outstanding := 2 })
        (flying (.completed (comp (.refresh 0) (some 0) .noDevice [])) (ent cfgG fun x => { x with refresh := .active })))
    (group 0 t).state = .sweeping ∧ (group 0 t).torn = true ∧ (group 0 t).outstanding = 1 ∧ t.flags = 0x001#13
      ∧ (entry 0 t).faultMark = true
      ∧ (entry 0 t).lastRefresh = .noDevice := by decide

/-- A device notice for the entry's address makes it STALE and asks for an URGENT refresh. -/
theorem test_deviceNotice_demands :
    let n : Notice := { segment := 0, subject := 0x50#7 }
    let t := noticeRefreshes n (noticeStales n (on id (ent cfgU fun x => { x with validity := .fresh })) 0) 0
    (entry 0 t).validity = .stale ∧ (entry 0 t).refresh = .queued ∧ (queue 0 t).urgent = [job (.refresh 0) .urgent] := by
  decide

/-- A soft reset with a frame of the part running leaves its controller in STOPPING and the part RESETTING. -/
theorem test_softReset_stopping :
    let t := after (.softReset 0#8 5#16) (writing .active)
    t.resetting = true ∧ (ctl 0 t).state = .stopping ∧ (ctl 0 t).earlyEnd = some 1 ∧ (entry 0 t).enable = .disabled
      ∧ t.flags = 0#13 := by decide +kernel

/-- The frame whose job a soft reset has dropped is followed to its next byte boundary (R92, R116). -/
theorem test_softReset_followsTheFrame :
    let s := after (.softReset 0#8 5#16) (writing .active)
    let t := after (.timebaseTick [report noTraffic [true, false, true] false]) s
    (ctl 0 t).byteInProgress = 0xA0#8 ∧ (ctl 0 t).bitCount = 3 ∧ (ctl 0 t).checkValue = 0#8
      ∧ (ctl 0 (after (.frameEndedEarly 0 noTraffic) t)).state = .stopping
      ∧ (ctl 0 (after (.frameEndedEarly 0 { acks := [true], reads := [] }) t)).state = .offline := by decide +kernel

/-- Segment 0 reads: a WRITE_READ of slot 0 with one byte sent and four to be read (section 7.11), or a refresh with check code.
-/
def exchange : State :=
  hold .active (act (.direct 0) .slotFrame .running) (.frame 0#32)
    (modSlot 0 (fun x => { x with state := .active, address := 0x50#7, kind := 3#3, writeCount := 1#6, readCount := 4#6 })
      State.reset)
def checkedRead : State :=
  hold .active (act (.refresh 0) .refreshRead .running) (.frame 0#32) (ent { cfgU with checkCode := true } id)

/-- Every byte read is given ACK but the last, the check byte; the data line is low in the acknowledge bit of the first (R82). -/
theorem test_read_acknowledges :
    let at8 := fun reads => after (.timebaseTick [report { acks := [true, true, true], reads := reads }
      (List.replicate 8 false) false]) checkedRead
    (ctl 0 (after (.timebaseTick [report { acks := [true, true, true], reads := [1#8, 2#8, 3#8] } [] false]) checkedRead)).acksGiven
        = [true, true, false]
      ∧ driven 0 (at8 [1#8]) = (.asInitiator, .low) ∧ driven 0 (at8 [1#8, 2#8]) = (.asInitiator, .released)
      ∧ driven 0 (after (.timebaseTick [report noTraffic [true] false]) checkedRead) = (.asInitiator, .low) := by decide +kernel

/-- Section 7.11: the cancel taken after the first read byte ends the frame after the second, which is refused, whatever the
other side gives beyond it; before that boundary, and of itself, the frame does not end (R82, R85). -/
theorem test_cancel_atTheNextBoundary :
    let s := after (.slotCancel 0#8 1#16 [report { acks := [true, true, true], reads := [0xA0#8] } [true, false] false]) exchange
    let u := after (.timebaseTick [report { acks := [], reads := [0xA1#8, 0xA2#8, 0xA3#8] } [] false]) s
    let t := after (.frameEndedEarly 0 noTraffic) u
    (ctl 0 s).earlyEnd = some 5 ∧ ctl 0 (after (.frameEndedEarly 0 noTraffic) s) = ctl 0 s
      ∧ (ctl 0 u).acksGiven = [true, false] ∧ wordAt (ctl 0 u).rx 0 = 0x0000A1A0#32
      ∧ ctl 0 (after (.frameEnd 0 noTraffic) u) = ctl 0 u
      ∧ (slot 0 t).state = .done ∧ (slot 0 t).result = .aborted ∧ (slot 0 t).acked = 1#6 ∧ (slot 0 t).received = 2#6
      ∧ (slot 0 t).attemptsUsed = 1#4 := by decide +kernel

/-- So many steps on an empty queue. -/
def idle (n : Nat) (s : State) : State :=
  match n with
  | 0 => s
  | n + 1 =>
    match step { s with pending := [] } with
    | .next t => idle n t
    | .fault _ | .refused _ => s

/-- R150: a write dropped before delivery 7 keeps its record and count and loses its flag; one dropped after it keeps the flag. -/
theorem test_softReset_droppedWrites :
    let d := after (.eventEnableWrite 0xF#4 1#32) (after (.softReset 0#8 5#16 [] 0) State.reset)
    let t := idle 20 d
    let l := after (.eventEnableWrite 0xF#4 1#32) (idle 20 (after (.softReset 0#8 5#16 [] 0) (writing .active)))
    d.resetting = true ∧ d.flags = 0x800#13 ∧ d.accessCount = 1#16 ∧ d.accessRecord.reason = .resetting
      ∧ t.resetting = false ∧ t.flags = 0x1000#13 ∧ t.accessRecord = d.accessRecord ∧ t.accessCount = 1#16
      ∧ l.resetting = true ∧ (idle 1 l).flags = 0x800#13
      ∧ (after (.frameEndedEarly 0 { acks := [true], reads := [] }) l).flags = 0x1800#13 := by decide +kernel

/-- R149: an entry's due expiry between deliveries 2 and 3 marks it, and of that nothing is left once all are taken. -/
theorem test_softReset_dueExpiryBetween :
    let s := after (.softReset 0#8 5#16 [] 16) (on id (ent cfgU fun x => { x with dueTime := some 0#32, validity := .fresh }))
    let u := after (.entryDueExpiry 0) s
    let t := idle 4 u
    (entry 0 u).faultMark = true ∧ (entry 0 u).validity = .stale ∧ u.flags = 0x001#13
      ∧ (entry 0 t).faultMark = false ∧ (entry 0 t).validity = .none ∧ t.flags = 0x1000#13 ∧ t.resetting = false := by
  decide +kernel

/-- R116, R73: delivery 1 frees the slot of the job dropped; a frame that ends before delivery 2 has the queue emptied, and the slot
of its DIRECT job freed, without SEGMENT_STOPPED; a SEGMENT_OFFLINE that ends before delivery 1 sets it. -/
theorem test_softReset_slotsAndQueues :
    let one : Traffic := { acks := [true], reads := [] }
    let s := waiting [job (.direct 1) .urgent] [] 1 (modSlot 1 (fun x => { x with state := .submitted }) exchange)
    let c := after (.softReset 0#8 5#16 [] 8) s
    let e := after (.frameEndedEarly 0 one) c
    let q := idle 1 c
    let o := after (.frameEnd 0 goodWrite) (after (.softReset 0#8 5#16 [] 0) (writing .stopping))
    slot 0 (after (.softReset 0#8 5#16 [] 1) s) = Slot.reset ∧ (ctl 0 c).state = .stopping ∧ occupancy (queue 0 c) = 1
      ∧ (slot 1 c).state = .submitted ∧ (ctl 0 e).state = .offline ∧ queue 0 e = SegQueue.reset ∧ (slot 1 e).state = .free
      ∧ e.flags = 0#13 ∧ e.resetting = true ∧ (idle 12 e).flags = 0x1000#13
      ∧ queue 0 q = SegQueue.reset ∧ (slot 1 q).state = .free ∧ (ctl 0 q).state = .stopping
      ∧ (ctl 0 o).state = .offline ∧ o.flags = 0x400#13 ∧ o.resetting = true := by decide +kernel

/-- R41, R32 (log entry 24): a HELD member disabled while another is ACTIVE tears the sweep and leaves the outstanding count, which
stays that of the members QUEUED or ACTIVE; the sweep ends, torn, with the other member's completion. -/
theorem test_disable_heldMember :
    let s := modGroup 0 (fun g => { g with state := .sweeping, outstanding := 1 })
      (modEntry 1 (fun x => { x with cfg := cfgG, enable := .enabled, refresh := .active })
        (ent cfgG fun x => { x with refresh := .held }))
    let t := after (.entryDisable 0#8 1#16) s
    let u := after (.memberRefreshCompletion 1) (flying (.completed (comp (.refresh 1) (some 0) .ok [1#8, 2#8])) t)
    (entry 0 t).enable = .disabled ∧ (group 0 t).state = .sweeping ∧ (group 0 t).torn = true ∧ (group 0 t).outstanding = 1
      ∧ t.flags = 0#13 ∧ (group 0 u).state = .idle ∧ (group 0 u).outstanding = 0 ∧ (group 0 u).lastTorn = true
      ∧ u.flags = 0x010#13 ∧ (entry 1 u).refresh = .idle := by decide +kernel

/-! ## Hypotheses that are met -/

/-- PinResetHoldsTheWholePart, HeldInResetIsKept: RESETn asserted, every block held, and a step in that state. -/
theorem test_meets_PinReset :
    (pinReset State.reset).inReset = true ∧ HeldInReset (pinReset State.reset)
      ∧ isHostWrite (.hostWrite 0x0008#14 0xF#4 1#32) = true ∧ isHostWrite (.softReset 0#8 0#16) = true
      ∧ State.reset.inReset = false
      ∧ step { pinReset State.reset with pending := [.timebaseTick [report goodRead [] true]] } = .next (pinReset State.reset) := ⟨rfl, fun _ => rfl, rfl, rfl, rfl, rfl⟩

/-- AccessErrorsFollowTheTable, FlagsEnablesAndInterruptOutput, AccessErrorWordsAreCleared: an address for each row of
Table 10.1, byte enables short of all four, and RESETTING. -/
theorem test_meets_AccessErrors :
    locate 0x3000#14 = none
      ∧ locate 0x0000#14 = some (.global .part) ∧ (Loc.global .part).kind = .readOnly
      ∧ locate 0x0008#14 = some (.global .command) ∧ (Loc.global .command).kind = .fullWord ∧ (0x7#4 : BitVec 4) ≠ 0xF#4
      ∧ locate 0x0014#14 = some (.global .enables) ∧ { State.reset with resetting := true }.resetting = true
      ∧ locate 0x2FFC#14 = some (.staging 127 7) ∧ (entry 127 State.reset).cfg.mode = 0#2
      ∧ locate 0x020C#14 = some .groupZero := by decide

/-- AccessErrorsFollowTheTable: a locked word of each kind. -/
theorem test_meets_LockedWords :
    (locate 0x0800#14 = some (.entryConfig0 0) ∧ Locked (.entryConfig0 0) (ent cfgU id))
      ∧ (locate 0x06FC#14 = some (.slotData 7 15)
        ∧ Locked (.slotData 7 15) (modSlot 7 (fun x => { x with state := .done }) State.reset))
      ∧ (locate 0x03F0#14 = some (.listenFields 15)
        ∧ Locked (.listenFields 15) (modListen 15 (fun x => { x with enabled := true }) State.reset))
      ∧ (locate 0x0104#14 = some (.segConfig1 0) ∧ Locked (.segConfig1 0) (on id State.reset)) := by
  refine ⟨⟨by decide, .inl ⟨0, ?_⟩⟩, ⟨by decide, .inr (.inl ⟨7, ?_⟩)⟩, ⟨by decide, .inr (.inr (.inl ⟨15, ?_⟩))⟩,
    ⟨by decide, .inr (.inr (.inr ⟨0, ?_⟩))⟩⟩
  all_goals decide

/-- Nothing is locked after reset. -/
theorem notLocked_reset (l : Loc) : ¬Locked l State.reset := by
  rintro (⟨e, _, h⟩ | ⟨k, _, h⟩ | ⟨i, _, h⟩ | ⟨q, _, h⟩)
  · exact h (by simp [entry, getAt, State.reset, Entry.reset])
  · exact h (by simp [slot, getAt, State.reset, Slot.reset])
  · exact absurd h (by simp [listenEntry, getAt, State.reset, ListenEntry.reset])
  · exact h (by simp [ctl, getAt, State.reset, Controller.reset])

/-- ConfigurationWritesReadBack: words of each kind after reset, the first and the last record. -/
theorem test_meets_ConfigurationWrites :
    (locate 0x0FF0#14 = some (.entryConfig0 127) ∧ writableBits (.entryConfig0 127) = some 0x03FFFFFF#32
        ∧ ¬Locked (.entryConfig0 127) State.reset)
      ∧ (locate 0x0100#14 = some (.segConfig0 0) ∧ ¬Locked (.segConfig0 0) State.reset)
      ∧ (locate 0x04E4#14 = some (.slotDesc1 7) ∧ ¬Locked (.slotDesc1 7) State.reset)
      ∧ (locate 0x0300#14 = some (.listenFields 0) ∧ ¬Locked (.listenFields 0) State.reset)
      ∧ locate 0x002C#14 = some (.global .detailSelect) ∧ ¬Locked (.global .detailSelect) State.reset
      ∧ State.reset.inReset = false ∧ State.reset.resetting = false := ⟨⟨by decide, by decide, notLocked_reset _⟩, ⟨by decide, notLocked_reset _⟩, ⟨by decide, notLocked_reset _⟩,
    ⟨by decide, notLocked_reset _⟩, by decide, notLocked_reset _, rfl, rfl⟩

/-- What is read back of a write of ones, over reset and over ones. -/
theorem test_meets_ConfigurationReadBack :
    readLoc (.entryConfig0 127) (after (.hostWrite 0x0FF0#14 0xF#4 0xFFFFFFFF#32) State.reset) = 0x03FFFFFF#32
      ∧ readLoc (.segConfig0 0) (after (.hostWrite 0x0100#14 0xF#4 0xFFFFFFFF#32) State.reset) = 0x00FF0F73#32
      ∧ readLoc (.slotDesc0 7) (after (.hostWrite 0x04E0#14 0xF#4 0xFFFFFFFF#32) State.reset) = 0x00177F07#32
      ∧ readLoc (.slotDesc1 7) (after (.hostWrite 0x04E4#14 0xF#4 0xFFFFFFFF#32) State.reset) = 0x00003F3F#32
      ∧ readLoc (.listenFields 15) (after (.hostWrite 0x03F0#14 0xF#4 0xFFFFFFFF#32) State.reset) = 0x00077FFF#32
      ∧ readLoc (.entrySettle 0) (after (.hostWrite 0x080C#14 0xF#4 0xFFFFFFFF#32) State.reset) = 0x000000FF#32 := by decide

/-- StagingWritesAreStoredByLane, SlotDataWritesAreStoredByLane: each mode, RESETTING, a FREE slot. -/
theorem test_meets_BufferWrites :
    (entry 0 (ent cfgU id)).cfg.mode = 2#2 ∧ (entry 0 (ent { cfgU with mode := 1#2 } id)).cfg.mode = 1#2
      ∧ (entry 0 (ent cfgG id)).cfg.mode = 0#2 ∧ { State.reset with resetting := true }.resetting = true
      ∧ (entry 0 (ent { cfgU with mode := 3#2 } id)).cfg.mode = 3#2
      ∧ locate 0x0500#14 = some (.slotData 0 0) ∧ locate 0x06FC#14 = some (.slotData 7 15)
      ∧ (slot 7 State.reset).state = .free ∧ (slot 0 (slotIn .done State.reset)).state ≠ .free ∧ (1#4 : BitVec 4) ≠ 0#4
      ∧ wordAt (entry 127 (after (.stagingBufferWrite 127 7 0x9#4 0x11223344#32)
        (modEntry 127 (fun x => { x with cfg := cfgU }) State.reset))).staging 7 = 0x11000044#32 := by decide

/-- RowsAreWritesOfTheirWords, CommandPortChecks: codes, and arguments at the edges of their ranges. -/
theorem test_meets_CommandRows :
    commandOf (.entryRefresh 127#8 9#16) = some (0x03#8, 127#8, 9#16) ∧ (0x03#8 : Byte) ≠ 0x20#8
      ∧ (0x00#8 : Byte) ∉ knownCodes ∧ (0x06#8 : Byte) ∉ knownCodes ∧ (0x7E#8 : Byte) ∉ knownCodes
      ∧ ArgInRange (.entryEnable 127#8 0#16) 127#8 ∧ ¬ArgInRange (.entryEnable 128#8 0#16) 128#8
      ∧ ArgInRange (.groupSweep 1#8 0#16) 1#8 ∧ ¬ArgInRange (.groupSweep 0#8 0#16) 0#8
      ∧ ArgInRange (.groupSweep 15#8 0#16) 15#8 ∧ ¬ArgInRange (.groupSweep 16#8 0#16) 16#8
      ∧ ArgInRange (.segmentOffline 7#8 0#16) 7#8 ∧ ¬ArgInRange (.segmentOffline 8#8 0#16) 8#8
      ∧ ArgInRange (.listenEnable 15#8 0#16) 15#8 ∧ ¬ArgInRange (.listenEnable 16#8 0#16) 16#8
      ∧ ArgInRange (.capturePop 255#8 0#16) 255#8 := by unfold ArgInRange; decide

/-- GroupPeriodWrites: a running timer, no member, period 0, a stopped timer with a member, the other words. -/
theorem test_meets_GroupPeriodWrites :
    (group 0 (modGroup 0 (fun x => { x with dueTime := some 7#32 }) State.reset)).dueTime ≠ none
      ∧ memberCount 0 State.reset = 0 ∧ memberCount 0 (ent cfgG id) = 1 ∧ (group 0 (ent cfgG id)).dueTime = none
      ∧ ((0x00000005#32 : Word).extractLsb' 0 16) ≠ 0#16 ∧ ((0xFFFF0000#32 : Word).extractLsb' 0 16) = 0#16
      ∧ (1 : Fin 16).val = (0 : GroupId).val + 1 ∧ (15 : Fin 16).val = (14 : GroupId).val + 1
      ∧ locate 0x0214#14 = some (.groupStatus 0) ∧ locate 0x02F8#14 = some (.groupCounts 14)
      ∧ locate 0x02FC#14 = some (.groupPublish 14) := by decide

/-- RequestsAtAQueue: a REFRESH job behind another in the ROUTINE class, one in the URGENT class, none. -/
theorem test_meets_Requests :
    (queue 0 (waiting [] [job (.refresh 1) .routine, job (.refresh 0) .routine] 0 State.reset)).routine
        = [job (.refresh 1) .routine] ++ job (.refresh 0) .routine :: []
      ∧ hasRef (.refresh 0) (job (.refresh 0) .routine) = true
      ∧ [job (.refresh 1) .routine].any (hasRef (.refresh 0)) = false
      ∧ (queue 0 (waiting [job (.refresh 0) .urgent] [] 0 State.reset)).routine.any (hasRef (.refresh 0)) = false := by decide

/-- EntryEnableStartsTheEntry: each refusal and each kind of start. -/
theorem test_meets_EntryEnable :
    (entry 0 (ent cfgU id)).enable ≠ .disabled ∧ (entry 0 State.reset).enable = .disabled
      ∧ ¬(1 ≤ (entry 0 State.reset).cfg.length.toNat)
      ∧ (1 ≤ cfgU.length.toNat ∧ cfgU.length.toNat ≤ 32 ∧ cfgU.offsetWidth ≠ 3#2 ∧ cfgU.mode ≠ 3#2
        ∧ (cfgU.group ≠ 0#4 → cfgU.mode = 0#2) ∧ (cfgU.verify = true → cfgU.mode = 2#2))
      ∧ cfgU.group = 0#4 ∧ cfgU.period ≠ 0#16 ∧ { cfgU with period := 0#16 }.period = 0#16
      ∧ cfgG.groupId = some 0
      ∧ (cfgG.mode = 0#2 ∧ cfgG.verify = false ∧ 1 ≤ cfgG.length.toNat)
      ∧ memberCount 0 (ent cfgG id) = 1 ∧ (group 0 (modGroup 0 (fun x => { x with period := 5#16 }) State.reset)).period ≠ 0#16
      ∧ (group 0 State.reset).period = 0#16 := by decide

/-- EntryRefreshByActivity: outside ENABLED, a member, each answer of the queue, a queued refresh. -/
theorem test_meets_EntryRefresh :
    (entry 0 State.reset).enable ≠ .enabled ∧ (entry 0 (ent cfgG id)).cfg.group ≠ 0#4
      ∧ (entry 0 (ent cfgU id)).cfg.group = 0#4 ∧ (entry 0 (ent cfgU id)).refresh = .idle
      ∧ answerOf (entry 0 (on id (ent cfgU id))).cfg.seg .urgent (on id (ent cfgU id)) = .admitted
      ∧ answerOf 0 .urgent (waiting (List.replicate 32 (job (.write 1) .urgent)) [] 0 (on id (ent cfgU id))) = .full
      ∧ answerOf (entry 0 (ent cfgU id)).cfg.seg .urgent (ent cfgU id) = .down
      ∧ (entry 0 (ent cfgU fun x => { x with refresh := .queued })).refresh ≠ .idle := by decide

/-- EntryCommitByWriteState: each refusal and each write state. -/
theorem test_meets_EntryCommit :
    (entry 0 State.reset).enable ≠ .enabled ∧ (entry 0 (ent cfgG id)).cfg.mode = 0#2
      ∧ (entry 0 (ent cfgU id)).cfg.mode ≠ 0#2 ∧ (ctl 0 (ent cfgU id)).state = .offline
      ∧ (ctl 0 (on id (ent cfgU id))).state = .idle
      ∧ (entry 0 (ent cfgU fun x => { x with write := .pending })).write = .pending
      ∧ (entry 0 (ent cfgU fun x => { x with write := .active })).write = .active
      ∧ (entry 0 (ent cfgU id)).write ≠ .pending ∧ (entry 0 (ent cfgU id)).write ≠ .active
      ∧ occupancy (queue 0 (waiting (List.replicate 32 (job (.write 1) .urgent)) [] 0 (on id (ent cfgU id)))) = 32
      ∧ occupancy (queue 0 (waiting (List.replicate 31 (job (.write 1) .urgent)) [] 0 (on id (ent cfgU id)))) < 32 := by decide

/-- EntryDueExpiryCoalesces: a due time just reached, one far behind, one ahead, and each activity. -/
theorem test_meets_EntryDueExpiry :
    let s := clock 5#32 (ent cfgU fun x => { x with dueTime := some 5#32 })
    (entry 0 s).dueTime = some 5#32 ∧ (entry 0 s).enable = .enabled ∧ (s.timebase - 5#32).toNat < 2 ^ 31
      ∧ ((clock 0x80000004#32 s).timebase - 5#32).toNat < 2 ^ 31
      ∧ 2 ^ 31 ≤ ((clock 0x80000005#32 s).timebase - 5#32).toNat ∧ 2 ^ 31 ≤ ((clock 4#32 s).timebase - 5#32).toNat
      ∧ (entry 0 s).refresh = .idle ∧ (entry 0 (ent cfgU id)).dueTime = none
      ∧ (entry 0 (ent cfgU fun x => { x with refresh := .active })).refresh = .active := by decide

/-- EntryDisableDrainsTheEntry: a queued refresh, a pending write, a HELD member and a write that has ended. -/
theorem test_meets_EntryDisable :
    (entry 0 State.reset).enable ≠ .enabled ∧ (entry 0 (ent cfgU id)).enable = .enabled
      ∧ holds (.refresh 0) (queue 0 (waiting [] [job (.refresh 0) .routine] 0 (ent cfgU id))) = true
      ∧ holds (.write 0) (queue 0 (waiting [job (.write 0) .urgent] [] 0 (ent cfgU id))) = true
      ∧ (entry 0 (ent cfgG fun x => { x with refresh := .held })).refresh = .held
      ∧ (entry 0 (ent cfgU fun x => { x with write := .mismatch })).write = .mismatch := by decide

/-- SweepRequests: no member, each group state, a due time reached and one ahead. -/
theorem test_meets_SweepRequests :
    (1#8 : Byte).toNat = (0 : GroupId).val + 1 ∧ (15#8 : Byte).toNat = (14 : GroupId).val + 1
      ∧ memberCount 0 State.reset = 0 ∧ memberCount 0 (ent cfgG id) ≠ 0 ∧ (group 0 (ent cfgG id)).state = .idle
      ∧ (group 0 (modGroup 0 (fun x => { x with state := .sweeping, dueTime := some 0#32 }) State.reset)).state = .sweeping
      ∧ (group 0 (modGroup 0 (fun x => { x with dueTime := some 0#32 }) State.reset)).dueTime = some 0#32
      ∧ (State.reset.timebase - 0#32).toNat < 2 ^ 31 ∧ 2 ^ 31 ≤ (State.reset.timebase - 1#32).toNat := by decide

/-- SweepStartAsksEveryMember: a member admitted, and none. -/
theorem test_meets_SweepStart :
    answeredBy 0 .routine .admitted (on id (ent cfgG id)) ≠ [] ∧ answeredBy 0 .routine .admitted State.reset = []
      ∧ (group 0 State.reset).sweepAgain = false
      ∧ (group 0 (modGroup 0 (fun x => { x with sweepAgain := true }) State.reset)).sweepAgain = true := by decide +kernel

/-- StartReportsMakeJobsActive: a start report in flight, first to its entry. -/
theorem test_meets_StartReports :
    FirstReport 0 (.started (.write 0)) (flying (.started (.write 0)) (ent cfgU id)) (ent cfgU id)
      ∧ (ctl 0 (hold .idle (act (.write 0) .writeFrame .due) .quiet (ent cfgU id))).active.map (fun a => a.job.ref)
        = some (.write 0) :=
  ⟨⟨[], [], rfl, by simp, rfl, rfl⟩, by decide⟩

/-- RefreshCompletionsPublishOrMark, MemberCompletionsHoldOrTear, DrainingCompletionsAreDiscarded,
WriteCompletionsRecordTheOutcome: a completion in flight, first to its entry; the enable states and the flags the clauses name. -/
theorem test_meets_Completions (r : JobRef) (tag : Option GroupId) (x : Result) (h : r.entry? = some 0) :
    FirstReport 0 (.completed (comp r tag x [])) (flying (.completed (comp r tag x [])) (ent cfgU id)) (ent cfgU id)
      ∧ InFlushOrder (comp r tag x []) (flying (.completed (comp r tag x [])) (ent cfgU id)) := by
  refine ⟨⟨[], [], rfl, by simp, h, rfl⟩, fun _ _ before after e d hd => ?_⟩
  cases before with
  | nil => cases hd
  | cons b bs => simp [flying] at e

/-- The same statements: the enable states, flags and counts their clauses name. -/
theorem test_meets_CompletionStates :
    (entry 0 (ent cfgU id)).enable = .enabled ∧ (entry 0 (ent cfgU id)).writeOvertaken = false
      ∧ (entry 0 (ent cfgU fun x => { x with writeOvertaken := true, refreshAgain := true })).writeOvertaken = true
      ∧ (entry 0 (ent cfgU fun x => { x with enable := .draining, refresh := .active })).enable = .draining
      ∧ (group 0 (modGroup 0 (fun x => { x with outstanding := 1 }) (ent cfgG id))).outstanding - 1 = 0
      ∧ (group 0 (modGroup 0 (fun x => { x with outstanding := 2 }) (ent cfgG id))).outstanding - 1 ≠ 0
      ∧ (entry 0 (ent cfgU fun x => { x with writeAgain := true })).writeAgain = true
      ∧ (entry 0 (ent cfgU fun x => { x with refresh := .queued })).refresh = .queued
      ∧ answerOf 0 .urgent (on id (ent cfgU id)) = .admitted ∧ answerOf 0 .urgent (ent cfgU id) = .down
      ∧ answerOf 0 .urgent (waiting (List.replicate 32 (job (.write 1) .urgent)) [] 0 (on id (ent cfgU id))) = .full := by decide

/-- DeviceNoticesReachEveryMatch: a notice in flight that matches entry 0 alone. -/
theorem test_meets_DeviceNotices :
    { ent cfgU id with notices := [{ segment := 0, subject := 0x50#7 }] }.notices = { segment := 0, subject := 0x50#7 } :: []
      ∧ ((entry 0 (ent cfgU id)).enable == .enabled && (entry 0 (ent cfgU id)).cfg.address == 0x50#7) = true
      ∧ ∀ e : EntryId, ((entry e State.reset).enable == .enabled) = false := by decide +kernel

/-- CompletionsCarryTheOutcome, RetriesFollowTheAttemptsField: the controller states, attempts at and below the limit. -/
theorem test_meets_ControllerStates :
    (ctl 0 (writing .active)).active = some (act (.write 0) .writeFrame .running) ∧ (ctl 0 State.reset).active = none
      ∧ foreignNow (ctl 0 (on (fun c => { c with state := .receiving }) State.reset))
      ∧ (ctl 0 (on (fun c => { c with state := .recovering }) State.reset)).state = .recovering
      ∧ (ctl 0 (writing .stopping)).state = .stopping
      ∧ (act (.write 0) .writeFrame .running).job.attempts.toNat < (ctl 0 (writing .active)).cfg.retryLimit.toNat
      ∧ ¬(2#3 : BitVec 3).toNat < (ctl 0 (writing .active)).cfg.retryLimit.toNat
      ∧ (ctl 0 (writing .active)).cfg.backoff ≠ 0#8
      ∧ (ctl 0 (on (fun c => { c with cfg := { c.cfg with backoff := 0#8 } }) State.reset)).cfg.backoff = 0#8
      ∧ (act (.write 0) .writeFrame .running).started = true
      ∧ (act (.write 0) .writeFrame .running).abortPending = false
      ∧ { act (.direct 0) .slotFrame .running with abortPending := true }.abortPending = true := by decide

/-- AttemptResultsMayQuarantine: a raise to the threshold, one short of it, a raise that stays at 15. -/
theorem test_meets_AttemptResults :
    newStreak .busBusy 3#4 = (ctl 0 State.reset).cfg.threshold ∧ newStreak .busBusy 2#4 ≠ (ctl 0 State.reset).cfg.threshold
      ∧ newStreak .busBusy 15#4 = 15#4 ∧ newStreak .noDevice 3#4 = 0#4 ∧ newStreak .aborted 3#4 = 3#4
      ∧ Result.busBusy ≠ .segmentFault := by decide

/-- DelaysEndOnTheTimebase: a delay just ended and one just short of it, of each kind. -/
theorem test_meets_Delays :
    let b := hold .backoff (act (.refresh 0) .refreshRead (.backoff 7#32)) .quiet (ent cfgU id)
    let w := hold .settle (act (.write 0) .writeFrame (.settle 7#32)) .quiet (ent cfgU id)
    (ctl 0 b).active = some (act (.refresh 0) .refreshRead (.backoff 7#32))
      ∧ passed 7#32 (ctl 0 b).cfg.backoff.toNat (clock 8#32 b) ∧ ¬passed 7#32 (ctl 0 b).cfg.backoff.toNat (clock 7#32 b)
      ∧ (ctl 0 w).active = some (act (.write 0) .writeFrame (.settle 7#32))
      ∧ passed 7#32 (entry 0 w).cfg.settleDelay.toNat (clock 10#32 w)
      ∧ ¬passed 7#32 (entry 0 w).cfg.settleDelay.toNat (clock 9#32 w) := by unfold passed; decide

/-- SelectionFollowsTheArbiter: each row of Table 4.4, an IDLE controller and one that selects nothing. -/
theorem test_meets_Selection :
    let j := job (.write 0) .urgent
    let s := waiting [j] [] 4 (on id State.reset)
    (queue 0 s).urgent = j :: [] ∧ (queue 0 s).routine = [] ∧ (queue 0 (waiting [j] [j] 3 s)).streak < 4
      ∧ 4 ≤ (queue 0 (waiting [j] [j] 4 s)).streak ∧ (queue 0 (waiting [] [j] 0 s)).urgent = []
      ∧ (ctl 0 s).state = .idle ∧ (ctl 0 s).active = none ∧ (ctl 0 State.reset).state ≠ .idle := by decide

/-- AttemptsBeginWithTheLineCheck: an attempt ready, one not, and a start that waits, at the edges of the limit. -/
theorem test_meets_LineCheck :
    let s := hold .idle (act (.write 0) .writeFrame .due) .quiet (ent cfgU id)
    let u := hold .active (act (.write 0) .writeFrame .due) (.startWait 0#32) (ent cfgU id)
    (ctl 0 s).state = .idle ∧ (ctl 0 s).bus = .free ∧ (ctl 0 s).own = .quiet
      ∧ (ctl 0 s).active = some (act (.write 0) .writeFrame .due) ∧ (ctl 0 (writing .active)).own ≠ .quiet
      ∧ (ctl 0 u).own = .startWait 0#32 ∧ (ctl 0 u).state = .active
      ∧ ¬passed 0#32 (ctl 0 u).cfg.holdLimit.toNat (clock 19#32 u)
      ∧ passed 0#32 (ctl 0 u).cfg.holdLimit.toNat (clock 20#32 u) := by unfold passed; decide

/-- FramesOfEveryJob: each frame, offset width and kind. -/
theorem test_meets_Frames :
    (act (.refresh 0) .refreshRead .due).job.ref = .refresh 0 ∧ (act (.write 0) .verifyRead .due).frame = .verifyRead
      ∧ (act (.write 0) .writeFrame .due).frame = .writeFrame ∧ (act (.direct 7) .slotFrame .due).job.ref = .direct 7
      ∧ cfgU.offsetWidth = 1#2 ∧ (slot 0 State.reset).kind = 0#3 ∧ (slot 0 (slotIn .free State.reset)).kind = 1#3
      ∧ (slot 0 (modSlot 0 (fun x => { x with kind := 3#3 }) State.reset)).kind = 3#3 := by decide

/-- FrameOutcomesAndCheckCode: elements sent before those read, with a check byte, and a byte refused; frames within a byte sent
and at the acknowledge bits of a byte sent and of one read. -/
theorem test_meets_FrameOutcomes :
    let bits := fun wire n s => after (.timebaseTick [report wire (List.replicate n true) false]) s
    let w := bits noTraffic 3 (writing .active)
    let x := bits { acks := [true], reads := [] } 8 (writing .active)
    let y := bits { acks := [true, true, true], reads := [] } 8 checkedRead
    [Element.address 0xA0#8 false, .offset 0x10#8, .sendData 1#8].all isSent = true
      ∧ isSent (.sendData 1#8) = true ∧ isSent .sendCheck = true
      ∧ (runFrame [.address 0x40#8 false, .sendData 1#8, .sendCheck] { acks := [true, true, false], reads := [] }).progress
        = .refused .dataRefused
      ∧ (runFrame [.address 0x40#8 false, .sendData 1#8, .sendCheck] { acks := [true, true, false], reads := [] }).crc
        = 0x5C#8
      ∧ (ctl 0 w).own = .frame 0#32 ∧ (ctl 0 w).state = .active ∧ (ctl 0 w).bitCount = 3
      ∧ (runOn 0 (partFrame 0 w) noTraffic w).progress = .cut (.address 0xA0#8 false)
      ∧ (ctl 0 x).bitCount = 8 ∧ (runOn 0 (partFrame 0 x) noTraffic x).progress = .cut (.offset 0x10#8)
      ∧ (ctl 0 y).bitCount = 8 ∧ (runOn 0 (partFrame 0 y) noTraffic y).progress = .cut .readData := by decide +kernel

/-- FrameEndsAreClassified: frames of each outcome, and an outcome the wire does not give whole. -/
theorem test_meets_FrameEnds :
    let s := writing .active
    let a := act (.write 0) .writeFrame .running
    let v := act (.write 0) .verifyRead .running
    let d := hold .active (act (.direct 0) .slotFrame .running) (.frame 0#32) (slotIn .active State.reset)
    let e := modCtl 0 (fun c => { c with earlyEnd := some 2 }) s
    (ctl 0 s).own = .frame 0#32 ∧ (ctl 0 s).active = some a
      ∧ (ctl 0 s).holdSince = none ∧ (runOf 0 a goodWrite s).progress = .whole true ∧ (ctl 0 s).earlyEnd = none
      ∧ (entry 0 s).cfg.verify = true
      ∧ (runOf 0 a { acks := [false], reads := [] } s).progress = .refused .noDevice
      ∧ (runOf 0 v { acks := [true, true, true], reads := [1#8, 2#8] } s).progress = .whole true
      ∧ (runOf 0 (act (.refresh 0) .refreshRead .running) { acks := [true, true, true], reads := [1#8, 2#8, 9#8] }
          (ent { cfgU with checkCode := true } id)).progress = .whole false
      ∧ (runOf 0 (act (.direct 0) .slotFrame .running) { acks := [true, true], reads := [] } d).progress = .whole true
      ∧ (act (.direct 0) .slotFrame .running).job.ref = .direct 0
      ∧ (runOf 0 a { acks := [true], reads := [] } s).progress = .cut (.offset 0x10#8)
      ∧ upToEnd 0 (jobFrame a (ctl 0 s).tx s) s = jobFrame a (ctl 0 s).tx s ∧ (runOf 0 a goodWrite e).progress = .whole true
      ∧ upToEnd 0 (jobFrame a (ctl 0 e).tx e) e ≠ jobFrame a (ctl 0 e).tx e
      ∧ (ctl 0 (writing .stopping)).state = .stopping ∧ (entry 0 s).cfg.settleDelay ≠ 0#8
      ∧ (entry 0 (ent { cfgU with settleDelay := 0#8 } id)).cfg.settleDelay = 0#8 := by decide +kernel

/-- Within the address byte after its start a frame is not released for a condition. -/
theorem noRelease {q : SegId} {els : List Element} {w : Traffic} {s : State} {b : Byte}
    (k : (runOn q els w s).progress = .cut (.address b false)) : ¬Compares q els w .release s := by
  rintro (⟨⟨_, h⟩, _⟩ | ⟨_, h⟩ | ⟨_, h⟩) <;> rw [k] at h <;> cases h

/-- EarlyEndsAreAborted: the boundary of an early end reached and not reached, none requested, a byte refused, and a dropped frame
that is within its last byte and whole, and one whose last byte was in progress. -/
theorem test_meets_EarlyEnds :
    let a := act (.direct 0) .slotFrame .running
    let s := on (fun c => { c with earlyEnd := some 1, state := .active, own := .frame 0#32, active := some a })
      (slotIn .active State.reset)
    let d := after (.softReset 0#8 5#16) (writing .active)
    let l := after (.softReset 0#8 5#16 [report { acks := [true, true, true], reads := [] } [true] false]) (writing .active)
    let one : Traffic := { acks := [true], reads := [] }
    (ctl 0 s).own = .frame 0#32 ∧ (ctl 0 s).active = some a ∧ (ctl 0 s).earlyEnd = some 1 ∧ (ctl 0 s).holdSince = none
      ∧ (runOn 0 (partFrame 0 s) one s).progress = .whole true
      ∧ (runOn 0 (partFrame 0 s) noTraffic s).progress = .cut (.address 0#8 false)
      ∧ (runOn 0 (partFrame 0 s) { acks := [false], reads := [] } s).progress = .refused .noDevice
      ∧ (ctl 0 (writing .active)).earlyEnd = none
      ∧ (ctl 0 d).own = .frame 0#32 ∧ (ctl 0 d).active = none ∧ (ctl 0 d).earlyEnd = some 1 ∧ (ctl 0 d).holdSince = none
      ∧ (runOn 0 (ctl 0 d).dropped goodWrite d).progress = .whole true
      ∧ upToEnd 0 (ctl 0 d).dropped d ≠ (ctl 0 d).dropped ∧ upToEnd 0 (ctl 0 l).dropped l = (ctl 0 l).dropped
      ∧ (runOn 0 (ctl 0 l).dropped one l).progress = .whole true
      ∧ Compares 0 (ctl 0 d).dropped noTraffic (.bit 0) d ∧ ¬Compares 0 (ctl 0 d).dropped noTraffic .release d := by
  refine ⟨by decide, by decide, by decide, by decide, by decide +kernel, by decide +kernel, by decide +kernel, by decide,
    by decide +kernel, by decide +kernel, by decide +kernel, by decide +kernel, by decide +kernel, by decide +kernel,
    by decide +kernel, by decide +kernel,
    ⟨.address 0xA0#8 false, 0xA0#8, by decide +kernel, rfl, by decide, fun _ => by decide +kernel⟩,
    noRelease (b := 0xA0#8) (by decide +kernel)⟩

/-- The statements about frames: no clock-hold too long, and one at the edges of the limit. -/
theorem test_meets_ClockHolds :
    let s := hold .active (act (.write 0) .writeFrame .running) (.frame 0#32)
      (modCtl 0 (fun c => { c with holdSince := some 7#32 }) (ent cfgU id))
    ¬HeldTooLong 0 (writing .active) ∧ HeldTooLong 0 (clock 27#32 s) ∧ ¬HeldTooLong 0 (clock 26#32 s)
      ∧ (ctl 0 (clock 27#32 s)).own = .frame 0#32 ∧ (ctl 0 (clock 27#32 s)).active ≠ none
      ∧ (report noTraffic [true] false).bits.length ≤ 8 ∧ goodWrite ≠ noTraffic := by
  refine ⟨notHeld (by decide), ⟨7#32, by decide, by unfold passed; decide⟩, ?_, by decide, by decide, by decide, by decide⟩
  rintro ⟨u, h, k⟩
  have hu : u = 7#32 := by
    have : (some 7#32 : Option Word) = some u := h
    injection this with this
    exact this.symm
  subst hu
  exact absurd k (by unfold passed; decide)

/-- ArbitrationLossBecomesForeign: a 1 of the address byte, one of its 0s, the refusal of the last byte read, a release, one
within a byte, and the byte of a loss in FOREIGN that is not whole. -/
theorem test_meets_LossPoints :
    let s := writing .active
    let a := act (.write 0) .writeFrame .running
    let r := act (.refresh 0) .refreshRead .running
    let els := jobFrame a (ctl 0 s).tx s
    let f := after (.arbitrationLoss 0 { acks := [true], reads := [] } (.bit 3)) s
    (ctl 0 s).own = .frame 0#32 ∧ (ctl 0 s).active = some a ∧ (ctl 0 s).streak ≠ (ctl 0 s).cfg.threshold
      ∧ Compares 0 els noTraffic (.bit 0) s ∧ ¬Compares 0 els noTraffic (.bit 1) s
      ∧ Compares 0 (jobFrame r (ctl 0 s).tx s) goodRead .refusal (hold .active r (.frame 0#32) (ent cfgU id))
      ∧ Compares 0 els goodWrite .release s ∧ ¬Compares 0 els noTraffic .release s
      ∧ (ctl 0 f).state = .foreign ∧ (ctl 0 f).own = .quiet ∧ (ctl 0 f).addressExpected = false ∧ (ctl 0 f).bitCount = 4 := by
  refine ⟨by decide, by decide, by decide, ⟨.address 0xA0#8 false, 0xA0#8, by decide, rfl, by decide, fun _ => by decide⟩, ?_,
    ⟨⟨true, by decide⟩, .inl (by decide)⟩,
    .inr (.inr ⟨true, by decide⟩), ?_, by decide +kernel,
    by decide +kernel, by decide +kernel, by decide +kernel⟩
  · rintro ⟨e, b, h, hb, k, _⟩
    have he : e = .address 0xA0#8 false := by
      have : FrameProgress.cut (.address 0xA0#8 false) = .cut e := h
      injection this with this
      exact this.symm
    subst he
    cases hb
    exact absurd k (by decide)
  · exact noRelease (b := 0xA0#8) (by decide)

/-- HoldTimeoutsMakeAStopAttempt: a start that waits and a stop attempt, each at its limit's edges. -/
theorem test_meets_LinesLost :
    let o : FrameOutcome := { result := .holdTimeout, acked := 0#6, received := 0#6, bytes := [] }
    let a := { act (.write 0) .writeFrame .running with last := some o }
    let u := hold .active a (.stopAttempt 0#32) (ent cfgU id)
    let w := hold .active a (.startWait 0#32) (ent cfgU id)
    (ctl 0 w).own = .startWait 0#32 ∧ passed 0#32 (ctl 0 w).cfg.holdLimit.toNat (clock 20#32 w)
      ∧ ¬passed 0#32 (ctl 0 w).cfg.holdLimit.toNat (clock 19#32 w)
      ∧ (ctl 0 u).own = .stopAttempt 0#32 ∧ (ctl 0 u).active = some a ∧ a.last = some o ∧ (ctl 0 u).state ≠ .stopping
      ∧ (ctl 0 (hold .stopping a (.stopAttempt 0#32) (ent cfgU id))).state = .stopping
      ∧ (ctl 0 (on (fun c => { c with state := .stopping, own := .stopAttempt 0#32 }) State.reset)).active = none := by
  unfold passed; decide

/-- BusyLimitEndsTheAttempt, ForeignFramesHoldTheBus: busy waits at the limit's edges, and each thing held. -/
theorem test_meets_BusyWaits :
    let s := on (fun c => { c with state := .foreign, busySince := some 0#32 }) State.reset
    let h := fun p => hold .foreign (act (.refresh 0) .refreshRead p) .quiet (ent cfgU id)
    (ctl 0 s).busySince = some 0#32 ∧ foreignNow (ctl 0 s) ∧ passed 0#32 (ctl 0 s).cfg.busyLimit.toNat (clock 50#32 s)
      ∧ ¬passed 0#32 (ctl 0 s).cfg.busyLimit.toNat (clock 49#32 s) ∧ (ctl 0 s).active = none
      ∧ occupancy (queue 0 (waiting [job (.write 0) .urgent] [] 0 s)) ≠ 0 ∧ occupancy (queue 0 s) = 0
      ∧ (ctl 0 State.reset).busySince = none
      ∧ (ctl 0 (h .due)).active = some (act (.refresh 0) .refreshRead .due)
      ∧ (ctl 0 (h (.settle 1#32))).active = some (act (.refresh 0) .refreshRead (.settle 1#32))
      ∧ (ctl 0 (h .backoffPending)).active = some (act (.refresh 0) .refreshRead .backoffPending)
      ∧ (ctl 0 (on id State.reset)).state = .idle
      ∧ { act (.refresh 0) .refreshRead .due with started := false }.started = false
      ∧ (ctl 0 (receivingWith id)).state = .receiving ∧ (ctl 0 s).cfg.backoff ≠ 0#8
      ∧ (ctl 0 (on (fun c => { c with state := .foreign, cfg := { c.cfg with backoff := 0#8 } }) State.reset)).cfg.backoff = 0#8
      ∧ (ctl 0 (hold .active (act (.refresh 0) .refreshRead .due) (.startWait 0#32) (ent cfgU id))).own = .startWait 0#32 := by unfold passed; decide

/-- AddressBytesAreDecided: a match, no match, direction R, each action, a ring with a place and without. -/
theorem test_meets_AddressBytes :
    let i := fun act : BitVec 3 =>
      modListen 15 (fun _ => { enabled := true, mask := 1#8, address := 0x20#7, action := act })
        (on (fun c => { c with state := .foreign, addressExpected := true }) State.reset)
    (ctl 0 (i 0#3)).state = .foreign ∧ (ctl 0 (i 0#3)).addressExpected = true
      ∧ UsedEntry 0 0x20#7 15 (i 1#3) ∧ (∀ j, ¬matchesListen 0 0x21#7 (listenEntry j (i 0#3)))
      ∧ (0x40#8 : Byte).extractLsb' 1 7 = 0x20#7 ∧ (0x40#8 : Byte).getLsbD 0 = false ∧ (0x41#8 : Byte).getLsbD 0 = true
      ∧ (ctl 0 (i 0#3)).bitCount = 0 ∧ (ctl 0 (i 0#3)).own = .quiet
      ∧ (∀ k, k < 8 → wireBit 0x9F#8 k = if k < 3 then wireBit 0x80#8 k else wireBit 0xFF#8 k)
      ∧ (listenEntry 15 (i 3#3)).action = 3#3 ∧ (i 0#3).ring.length + reservedCount (i 0#3) < 32 := by unfold UsedEntry matchesListen; decide

/-- RingStaysBoundedAndInOrder, AddressBytesAreDecided: a ring of 32 records leaves no place. -/
theorem test_meets_FullRing (r : CaptureRecord) :
    32 ≤ { State.reset with ring := List.replicate 32 r }.ring.length + reservedCount { State.reset with ring := [] } := by
  simp

/-- ReceptionsEndInRecordsAndNotices: a reception open in RECEIVING, with no byte, 31 and 32 stored. -/
theorem test_meets_Receptions :
    (ctl 0 (receivingWith id)).state = .receiving ∧ (reception 0 (receivingWith id)).isSome = true
      ∧ (ctl 0 (receivingWith id)).own = .quiet ∧ (ctl 0 (receivingWith id)).rxCount = 0
      ∧ (received [1#8] (ctl 0 (receivingWith fun c => { c with rxCount := 31 }))).overran = false
      ∧ (received [1#8] (ctl 0 (receivingWith fun c => { c with rxCount := 32 }))).overran = true
      ∧ (received [1#8] (ctl 0 (receivingWith fun c => { c with rxCount := 32 }))).acksGiven = [false] := by decide

/-- ListenAndCaptureCommands: an enabled entry, a disabled one with and without a valid configuration. -/
theorem test_meets_ListenAndCapture :
    (listenEntry 15 (modListen 15 (fun x => { x with enabled := true }) State.reset)).enabled = true
      ∧ (listenEntry 15 State.reset).enabled = false ∧ (listenEntry 15 State.reset).mask = 0#8
      ∧ (listenEntry 0 (modListen 0 (fun x => { x with mask := 0x80#8, action := 3#3 }) State.reset)).mask ≠ 0#8
      ∧ (3#3 : BitVec 3).toNat < 4 ∧ 4 ≤ (4#3 : BitVec 3).toNat ∧ State.reset.ring = [] := by decide

/-- RecoveryChecksAndStops, RecoveryEventsFollowTheSteps: each step, and the limits' edges. -/
theorem test_meets_Recovery :
    let r := fun p => on (fun c => { c with state := .recovering, recovery := some { phase := p, pulses := 16 } }) State.reset
    senseHigh.check.scl = true ∧ clockLow.scl = false ∧ dataLow.sda = false ∧ high.scl = true ∧ high.sda = true
      ∧ (ctl 0 (r .pulsing)).recovery = some { phase := .pulsing, pulses := 16 }
      ∧ (ctl 0 (r (.lineClear 0#32))).recovery = some { phase := .lineClear 0#32, pulses := 16 }
      ∧ passed 0#32 40 (clock 40#32 State.reset) ∧ ¬passed 0#32 40 (clock 39#32 State.reset)
      ∧ (ctl 0 (r (.checkWait 0#32))).recovery = some { phase := .checkWait 0#32, pulses := 16 }
      ∧ (ctl 0 (r (.clearWait 0#32))).recovery = some { phase := .clearWait 0#32, pulses := 16 }
      ∧ passed 0#32 (ctl 0 State.reset).cfg.holdLimit.toNat (clock 20#32 State.reset)
      ∧ ¬passed 0#32 (ctl 0 State.reset).cfg.holdLimit.toNat (clock 19#32 State.reset) := by unfold passed; decide

/-- SegmentsComeOnline, SegmentOfflineStopsTheSegment: each state, a bad configuration, each place of the job. -/
theorem test_meets_SegmentCommands :
    (ctl 0 (on id State.reset)).state ≠ .offline ∧ (ctl 0 State.reset).state = .offline
      ∧ (on (fun c => { c with cfg := { c.cfg with speed := 3#2 } }) State.reset |> ctl 0).cfg.speed = 3#2
      ∧ (ctl 0 State.reset).cfg.speed ≠ 3#2 ∧ (ctl 0 State.reset).cfg.holdLimit ≠ 0#8
      ∧ (ctl 0 State.reset).cfg.busyLimit ≠ 0#8 ∧ (ctl 0 State.reset).cfg.threshold ≠ 0#4
      ∧ (ctl 0 (on (fun c => { c with state := .quarantined }) State.reset)).state = .quarantined
      ∧ (ctl 0 (on id State.reset)).own = .quiet ∧ (ctl 0 (on id State.reset)).active = none
      ∧ (ctl 0 (writing .active)).own = .frame 0#32
      ∧ (ctl 0 (hold .recovering (act (.write 0) .writeFrame .recovering) .quiet (ent cfgU id))).own = .quiet := by decide

/-- SegmentOfflineStopsTheSegment: SETTLE, BACKOFF, a backoff pending and an attempt due, with no last outcome, a failed one and
that of a write frame that ended OK. -/
theorem test_meets_OfflinePlaces :
    let o : Result → FrameOutcome := fun r => { result := r, acked := 1#6, received := 0#6, bytes := [] }
    let held := fun (st : CtlState) (p : JobPhase) (l : Option FrameOutcome) =>
      ctl 0 (hold st { act (.write 0) .writeFrame p with last := l } .quiet (ent cfgU id))
    (held .settle (.settle 1#32) (some (o .ok))).active.map (fun a => a.phase) = some (.settle 1#32)
      ∧ (held .backoff (.backoff 1#32) (some (o .busBusy))).active.map (fun a => a.phase) = some (.backoff 1#32)
      ∧ (held .foreign .backoffPending (some (o .lostArbitration))).active.map (fun a => a.phase) = some .backoffPending
      ∧ (held .idle .due none).active.map (fun a => a.phase) = some .due ∧ (held .settle (.settle 1#32) none).own = .quiet
      ∧ (o .busBusy).result ≠ .ok ∧ (held .idle .due (some (o .ok))).active.bind (fun a => a.last) = some (o .ok)
      ∧ refusesJobs .settle = false ∧ refusesJobs .backoff = false ∧ refusesJobs .foreign = false := by decide

/-- SlotSubmitFollowsTheTable, SlotCancelAndRelease: each slot state, counts at their edges, each answer. -/
theorem test_meets_Slots :
    (slot 0 (slotIn .done State.reset)).state ≠ .free ∧ (slot 0 (slotIn .free State.reset)).state = .free
      ∧ 32 < (33#6 : BitVec 6).toNat ∧ ¬32 < (32#6 : BitVec 6).toNat ∧ (slot 0 (slotIn .free State.reset)).writeCount = 1#6
      ∧ answerOf (slot 0 (slotIn .free State.reset)).seg .urgent (on id (slotIn .free State.reset)) = .admitted
      ∧ answerOf (slot 0 (slotIn .free State.reset)).seg .urgent (slotIn .free State.reset) = .down
      ∧ answerOf 0 .urgent (waiting (List.replicate 32 (job (.write 1) .urgent)) [] 0 (on id (slotIn .free State.reset))) = .full
      ∧ (slot 0 (slotIn .active State.reset)).cancelPending = false
      ∧ (ctl 0 (hold .backoff (act (.direct 0) .slotFrame (.backoff 0#32)) .quiet State.reset)).own = .quiet
      ∧ (act (.direct 0) .slotFrame (.backoff 0#32)).phase ≠ .recovering
      ∧ (ctl 0 (hold .recovering (act (.direct 0) .slotFrame .recovering) .quiet State.reset)).state = .recovering
      ∧ (ctl 0 State.reset).active.map (fun a => a.job.ref) ≠ some (.direct 0) := by decide

/-- R118, R127: a frame's own end after an accepted cancel leaves the slot DONE with OK in that event; the early end ABORTED. -/
theorem test_slot_doneInTheSameEvent :
    let s := modCtl 0 (fun c => { c with earlyEnd := some 2, own := .frame 0#32, state := .active, bus := .busy
                                         active := some { act (.direct 0) .slotFrame .running with abortPending := true } })
      (on id (slotIn .active State.reset))
    let wire : Traffic := { acks := [true, true], reads := [] }
    let t := after (.frameEnd 0 wire) s
    (slot 0 t).state = .done ∧ (slot 0 t).result = .ok ∧ (slot 0 t).attemptsUsed = 1#4 ∧ (ctl 0 t).active = none
      ∧ t.reports = [] ∧ t.flags = 0x020#13 ∧ (slot 0 (after (.frameEndedEarly 0 wire) s)).result = .aborted := by decide +kernel

/-- SlotCompletionsFillTheSlot: the slot's completion behind a report to another owner, and an active DIRECT job. -/
theorem test_meets_SlotCompletions :
    (∀ r ∈ [Report.started (.refresh 0)], r.ref ≠ .direct 0) ∧ (comp (.direct 0) none .ok []).ref = .direct 0
      ∧ (flying (.started (.refresh 0)) State.reset).reports = [.started (.refresh 0)]
      ∧ (ctl 0 (hold .idle (act (.direct 0) .slotFrame .due) .quiet State.reset)).active = some (act (.direct 0) .slotFrame .due)
      ∧ (act (.direct 0) .slotFrame .due).job.ref = .direct 0 := by decide

/-- SoftResetDeliversToEveryBlock: a frame of the part on the wire, and none; every delivery as the next one; a write that is
dropped before and after delivery 7. StepRunsTheFrontCommand: an empty queue with and without a delivery to take. -/
theorem test_meets_SoftReset :
    onWire (ctl 0 (writing .active)) ∧ (∀ q, (ctl q State.reset).own = .quiet) ∧ Ready State.reset ∧ Ready (writing .active)
      ∧ (∀ n : Fin 20, (deliveriesLeft { State.reset with resetting := true, undelivered := n.succ }).head?
          = resetOrder[19 - n.val]?)
      ∧ locate 0x0014#14 = some (.global .enables) ∧ (Loc.global .enables).kind = .fullWord
      ∧ Delivery.events ∈ deliveriesLeft { State.reset with resetting := true, undelivered := 1 }
      ∧ Delivery.events ∉ deliveriesLeft { State.reset with resetting := true, undelivered := 0 }
      ∧ State.reset.pending = [] ∧ State.reset.undelivered = 0 :=
  ⟨.inl ⟨0#32, by decide⟩, by decide, by unfold Ready; decide, by unfold Ready; decide, by decide, by decide, by decide,
    by decide, by decide, by decide, by decide⟩

/-- The invariants: a step out of a state that has them, reset with one tick waiting. -/
theorem test_meets_Invariants :
    step { State.reset with pending := [.timebaseTick []] } = .next { State.reset with timebase := 1#32 }
      ∧ (∀ q, occupancy (queue q State.reset) = 0 ∧ (queue q State.reset).streak = 0)
      ∧ (∀ q, (ctl q State.reset).state = .offline ∧ (ctl q State.reset).own = .quiet ∧ (ctl q State.reset).recovery = none)
      ∧ State.reset.ring = [] ∧ ∀ q, reception q State.reset = none :=
  ⟨rfl, by decide, by decide, rfl, by decide⟩

end Sys2Proof.Tests
end

section
/-! The operations of the Mirror Table and the Refresh Scheduler in the words of the statements: for each shared operation of the
model the word of `Spec` that it computes, once, so that no later proof unfolds it. -/

namespace Sys2Proof.Proofs

open Sys2Proof.Machine Sys2Proof.Safety Sys2Proof.Spec

/-! ## Values of fields -/

theorem staled_eq_toStale (v : Validity) : staled v = toStale v := by cases v <;> rfl

theorem satInc_eq_oneMore (c : Byte) : satInc c = oneMore c := by
  have hall : BitVec.allOnes 8 = 255#8 := by decide
  unfold satInc oneMore
  rw [hall]
  split
  · next h => exact h
  · rfl

theorem fill_nil (n : Nat) : fill n [] = Vector.replicate n 0#8 := getAt_ext fun i => by simp [fill]

/-- The group field 0 says that the entry is ungrouped (Table 1.2). -/
theorem groupId_eq_none_iff (c : EntryConfig) : c.groupId = none ↔ c.group = 0#4 := by
  unfold EntryConfig.groupId
  split
  · next h => exact ⟨fun _ => BitVec.eq_of_toNat_eq h, fun _ => rfl⟩
  · next h => exact ⟨fun hn => (nomatch hn), fun hg => absurd (by rw [hg]; rfl) h⟩

/-- Being ungrouped, as the model tests it and as R50 says it. -/
theorem groupId_beq_none (c : EntryConfig) : (c.groupId == none) = (c.group == 0#4) := by
  rw [Bool.eq_iff_iff, beq_iff_eq, beq_iff_eq, groupId_eq_none_iff]

theorem overtakenAtAdmission_eq (x : Entry) : overtakenAtAdmission x = meetsWrite x := by
  unfold overtakenAtAdmission meetsWrite
  rw [groupId_beq_none]

/-! ## Records -/

/-- Two changes of one entry are one. -/
theorem modEntry_modEntry (e : EntryId) (f g : Entry → Entry) (s : State) :
    modEntry e f (modEntry e g s) = modEntry e (fun x => f (g x)) s := by
  simp [modEntry, entry]

/-- Two changes of one group are one. -/
theorem modGroup_modGroup (g : GroupId) (f f' : Group → Group) (s : State) :
    modGroup g f (modGroup g f' s) = modGroup g (fun x => f (f' x)) s := by
  simp [modGroup, group]

/-- A change that keeps the entry as it is keeps the state. -/
theorem modEntry_eq_self {e : EntryId} {f : Entry → Entry} {s : State} (h : f (entry e s) = entry e s) :
    modEntry e f s = s := by
  unfold modEntry
  rw [h]
  simp [entry]

/-- An entry after a change of one, which may be another. -/
theorem entry_modEntry (e j : EntryId) (f : Entry → Entry) (s : State) :
    entry j (modEntry e f s) = if j = e then f (entry j s) else entry j s := by
  split
  · next h => rw [h, entry_modEntry_same]
  · next h => exact entry_modEntry_ne e f s h

theorem markFault_eq_marked (e : EntryId) (s : State) : markFault e s = marked e s := by
  unfold markFault marked
  split
  · next h =>
    have hput : putAt s.entries e { entry e s with faultMark := true } = s.entries := by
      rw [← h]; exact putAt_getAt _ _
    rw [hput]
  · rfl

/-! ## Requests at a Segment Queue -/

/-- The rows of Table 4.3 in the words of the statements. -/
theorem admissionAnswer_eq (q : SegId) (cls : JobClass) (s : State) : admissionAnswer q cls s = answerOf q cls s := by
  have hdown : isDown q s = (refusesJobs (ctl q s).state || s.resetting) := by
    unfold isDown
    cases (ctl q s).state <;> rfl
  unfold admissionAnswer answerOf
  rw [hdown]
  cases refusesJobs (ctl q s).state
  · cases s.resetting
    · cases cls <;> simp only [limit, reduceCtorEq, true_and, false_and, if_false, Bool.or_self,
        Bool.false_eq_true] <;> rfl
    · rfl
  · rfl

theorem enqueue_eq_withTail (j : Job) (q : SegQueue) : enqueue j q = withTail j.cls [j] q := by
  unfold enqueue withTail
  cases j.cls <;> rfl

/-- An admission request in the words of Table 4.3, R60 and R98. -/
theorem requestAdmission_eq (q : SegId) (j : Job) (s : State) :
    requestAdmission q j s
      = (if answerOf q j.cls s = .admitted then joined q j s else s, answerOf q j.cls s) := by
  by_cases h : answerOf q j.cls s = .admitted
  · have hwait : (occupancy (queue q s) = 0 ∧ inForeignFrame (ctl q s).state = true ∧ (ctl q s).active = none)
        ↔ beginsWait q s = true := by
      simp [beginsWait, inForeignFrame, and_assoc]
    rw [if_pos h, h]
    unfold requestAdmission joined
    rw [admissionAnswer_eq, h, enqueue_eq_withTail]
    simp only [hwait]
    split <;> rfl
  · rw [if_neg h, admit_refused (by rwa [admissionAnswer_eq]), admissionAnswer_eq]

/-- What a split at the first element that meets `p` says of the list. -/
theorem any_and_eraseP_of_splitAtFirst {α : Type} {p : α → Bool} {l b a : List α} {x : α}
    (h : splitAtFirst p l = some (b, x, a)) : l.any p = true ∧ l.eraseP p = b ++ a ∧ (l.filter p).take 1 = [x] := by
  obtain ⟨rfl, hx, hb⟩ := splitAtFirst_some h
  refine ⟨by simp [hx], ?_, ?_⟩
  · rw [List.eraseP_append_right _ (by simpa using hb), List.eraseP_cons_of_pos hx]
  · rw [List.filter_append, List.filter_eq_nil_iff.2 (by simpa using hb), List.nil_append, List.filter_cons_of_pos hx]
    rfl

theorem any_eq_false_of_splitAtFirst {α : Type} {p : α → Bool} {l : List α} (h : splitAtFirst p l = none) :
    l.any p = false := by
  simpa using splitAtFirst_none h

/-- The queue after a removal, and that there is one exactly where the queue holds the job (R65). -/
theorem withoutJob_eq (r : JobRef) (q : SegQueue) :
    withoutJob r q = if holds r q = true then some (queueWithout r q) else none := by
  unfold withoutJob holds queueWithout
  cases hu : splitAtFirst (hasRef r) q.urgent with
  | some v =>
    obtain ⟨b, j, a⟩ := v
    obtain ⟨hany, herase, -⟩ := any_and_eraseP_of_splitAtFirst hu
    simp [hany, herase]
  | none =>
    have hnone := any_eq_false_of_splitAtFirst hu
    cases hr : splitAtFirst (hasRef r) q.routine with
    | some v =>
      obtain ⟨b, j, a⟩ := v
      obtain ⟨hany, herase, -⟩ := any_and_eraseP_of_splitAtFirst hr
      simp only [hnone, hany, herase, Bool.false_or, Bool.false_eq_true, if_true, if_false]
    | none => simp only [hnone, any_eq_false_of_splitAtFirst hr, Bool.or_self, Bool.false_eq_true, if_false]

/-- A removal request in the words of R65 and R98. -/
theorem removeJob_eq (q : SegId) (r : JobRef) (s : State) :
    removeJob q r s = (if holds r (queue q s) = true then left q r s else s, holds r (queue q s)) := by
  unfold removeJob
  rw [withoutJob_eq]
  cases holds r (queue q s)
  · rfl
  · simp only [if_true, left]
    split <;> rfl

/-! ## Requests of an entry -/

/-- A request for a REFRESH job with its answer (R30, R50). -/
theorem requestRefresh_fst (e : EntryId) (cls : JobClass) (tag : Option GroupId) (s : State) :
    (requestRefresh e cls tag s).1 = requested e cls tag s := by
  unfold requestRefresh requested
  rw [requestAdmission_eq]
  simp only [overtakenAtAdmission_eq]
  cases answerOf (entry e s).cfg.seg cls s
  · rfl
  · simp only [reduceCtorEq, if_false, raiseMissed, satInc_eq_oneMore]
    cases cls <;> rfl
  · simp only [refreshRefusedDown, markFault_eq_marked, staled_eq_toStale]
    rfl

/-- An on-demand refresh by the refresh activity (R24, R31). -/
theorem demandRefresh_fst (e : EntryId) (s : State) : (demandRefresh e s).1 = demanded e s := by
  unfold demandRefresh demanded
  cases (entry e s).refresh with
  | idle => exact requestRefresh_fst e .urgent none s
  | active => rfl
  | held => rfl
  | queued =>
    cases (entry e s).refreshClass with
    | urgent => rfl
    | routine =>
      dsimp only [promote]
      cases h : splitAtFirst (hasRef (.refresh e)) (queue (entry e s).cfg.seg s).routine with
      | some v =>
        obtain ⟨b, j, a⟩ := v
        obtain ⟨hany, herase, hfirst⟩ := any_and_eraseP_of_splitAtFirst h
        simp only [hany, herase, hfirst, if_true]
        rfl
      | none =>
        simp only [any_eq_false_of_splitAtFirst h]
        cases (queue (entry e s).cfg.seg s).urgent.any (hasRef (.refresh e)) <;> rfl

/-! ## Sweeps and the way to DISABLED -/

/-- A member's withdrawal in the words of R41. -/
theorem withdrawMember_eq (g : Option GroupId) (wasHeld : Bool) (s : State) :
    withdrawMember g wasHeld s = withdrawn g wasHeld s := by
  cases g with
  | none => rfl
  | some g =>
    cases wasHeld <;>
      simp only [withdrawMember, withdraw, withdrawn, lowerOutstanding, endIfNoneOutstanding, modGroup_modGroup,
        group_modGroup_same, Bool.false_eq_true, if_true, if_false] <;> rfl

/-- An entry's way from DRAINING to DISABLED in the words of R23. -/
theorem reachDisabled_eq (e : EntryId) (s : State) : reachDisabled e s = drained e s := by
  unfold reachDisabled drained memberLeft
  dsimp only
  split
  · cases (entry e s).cfg.groupId <;> rfl
  · rfl

end Sys2Proof.Proofs
end

section
/-! What sweeps and requests for refreshes leave as it was: configuration and enable state of every entry, the whole of an entry
that is neither ENABLED nor HELD, and the WRITE jobs in every queue. -/

namespace Sys2Proof.Proofs

open Sys2Proof.Machine Sys2Proof.Safety Sys2Proof.Spec

/-- What a sweep, or a refresh asked of an ENABLED entry, leaves. An entry in DRAINING whose refresh is not HELD is not asked,
publishes nothing and discards nothing, so it is not touched at all. -/
structure RefreshFrame (s t : State) : Prop where
  config : ∀ e, (entry e t).cfg = (entry e s).cfg
  enable : ∀ e, (entry e t).enable = (entry e s).enable
  bystander : ∀ e, (entry e s).enable ≠ .enabled → (entry e s).refresh ≠ .held → entry e t = entry e s
  writes : ∀ e q, holds (.write e) (queue q t) = holds (.write e) (queue q s)

namespace RefreshFrame

theorem refl (s : State) : RefreshFrame s s := ⟨fun _ => rfl, fun _ => rfl, fun _ _ _ => rfl, fun _ _ => rfl⟩

theorem trans {s t u : State} (h : RefreshFrame s t) (k : RefreshFrame t u) : RefreshFrame s u where
  config e := (k.config e).trans (h.config e)
  enable e := (k.enable e).trans (h.enable e)
  bystander e he hr := by
    have ht := h.bystander e he hr
    exact (k.bystander e (by rwa [ht]) (by rwa [ht])).trans ht
  writes e q := (k.writes e q).trans (h.writes e q)

theorem foldl {α : Type} {f : State → α → State} (hf : ∀ s a, RefreshFrame s (f s a)) (l : List α) (s : State) :
    RefreshFrame s (l.foldl f s) := by
  induction l generalizing s with
  | nil => exact refl s
  | cons a l ih => exact (hf s a).trans (ih _)

/-- An operation on other parts of the state. -/
theorem of_eq {s t : State} (he : t.entries = s.entries) (hq : t.queues = s.queues) : RefreshFrame s t := by
  have hentry : ∀ e, entry e t = entry e s := fun e => by rw [entry, he]; rfl
  exact ⟨fun e => by rw [hentry], fun e => by rw [hentry], fun e _ _ => hentry e,
    fun e q => by rw [queue, hq]; rfl⟩

/-- An operation on queues that leaves their WRITE jobs. -/
theorem of_queues {s t : State} (he : t.entries = s.entries)
    (hw : ∀ e q, holds (.write e) (queue q t) = holds (.write e) (queue q s)) : RefreshFrame s t := by
  have hentry : ∀ e, entry e t = entry e s := fun e => by rw [entry, he]; rfl
  exact ⟨fun e => by rw [hentry], fun e => by rw [hentry], fun e _ _ => hentry e, hw⟩

/-- A change of an entry that is ENABLED or HELD, its configuration and enable state kept. -/
theorem modEntry {e : EntryId} {f : Entry → Entry} {s : State} (hc : (f (entry e s)).cfg = (entry e s).cfg)
    (hn : (f (entry e s)).enable = (entry e s).enable) (h : (entry e s).enable = .enabled ∨ (entry e s).refresh = .held) :
    RefreshFrame s (modEntry e f s) where
  config j := by
    by_cases hj : j = e
    · subst hj; rw [entry_modEntry_same, hc]
    · rw [entry_modEntry_ne e f s hj]
  enable j := by
    by_cases hj : j = e
    · subst hj; rw [entry_modEntry_same, hn]
    · rw [entry_modEntry_ne e f s hj]
  bystander j he hr := by
    have hj : j ≠ e := by
      rintro rfl
      exact h.elim he hr
    exact entry_modEntry_ne e f s hj
  writes _ _ := rfl

end RefreshFrame

/-! ## Requests -/

theorem hasRef_write_of_hasRef_refresh {e d : EntryId} {j : Job} (h : hasRef (.refresh e) j = true) :
    hasRef (.write d) j = false := by
  have hj : j.ref = .refresh e := by simpa [hasRef] using h
  simp [hasRef, hj]

/-- Jobs of one kind taken out of a list are not missed among those of another. -/
theorem any_eraseP_of_disjoint {α : Type} {p r : α → Bool} (h : ∀ x, p x = true → r x = false) (l : List α) :
    (l.eraseP p).any r = l.any r := by
  induction l with
  | nil => rfl
  | cons x l ih =>
    by_cases hx : p x = true
    · rw [List.eraseP_cons_of_pos hx, List.any_cons, h x hx, Bool.false_or]
    · rw [List.eraseP_cons_of_neg hx, List.any_cons, List.any_cons, ih]

/-- A REFRESH job leaves its queue: the WRITE jobs stay (R65). -/
theorem left_frame (q : SegId) (e : EntryId) (s : State) : RefreshFrame s (left q (.refresh e) s) := by
  refine .of_queues rfl fun d p => ?_
  by_cases hp : p = q
  · subst hp
    have hq : queue p (left p (.refresh e) s) = queueWithout (.refresh e) (queue p s) := getAt_putAt_same _ _ _
    rw [hq]
    unfold queueWithout holds
    split <;> dsimp only <;> rw [any_eraseP_of_disjoint fun j => hasRef_write_of_hasRef_refresh]
  · have hq : queue p (left q (.refresh e) s) = queue p s := getAt_putAt_ne _ _ hp
    rw [hq]

/-- A REFRESH job joins its queue: no WRITE job comes with it (R60). -/
theorem joined_frame (q : SegId) (e : EntryId) (cls : JobClass) (tag : Option GroupId) (s : State) :
    RefreshFrame s (joined q (refreshJob e cls tag) s) := by
  refine .of_queues rfl fun d p => ?_
  by_cases hp : p = q
  · subst hp
    have hq : queue p (joined p (refreshJob e cls tag) s) = withTail cls [refreshJob e cls tag] (queue p s) :=
      getAt_putAt_same _ _ _
    have hj : hasRef (.write d) (refreshJob e cls tag) = false := rfl
    rw [hq]
    cases cls <;> simp [withTail, holds, hj]
  · have hq : queue p (joined q (refreshJob e cls tag) s) = queue p s := getAt_putAt_ne _ _ hp
    rw [hq]

/-- A REFRESH job is promoted: the WRITE jobs stay (R64). -/
theorem promote_refreshFrame (q : SegId) (e : EntryId) (s : State) : RefreshFrame s (promote q e s).1 := by
  refine .of_queues (by rw [promote_frame]) fun d p => ?_
  dsimp only [promote]
  split
  · next b j a h =>
    obtain ⟨hl, hj, -⟩ := splitAtFirst_some h
    by_cases hp : p = q
    · subst hp
      have hw : hasRef (.write d) j = false := hasRef_write_of_hasRef_refresh hj
      have hw' : hasRef (.write d) { j with cls := .urgent } = false := hw
      simp [holds, hl, hw, hw', queue_setQueue_same]
    · rw [queue_setQueue_ne _ _ _ hp]
  · rfl

/-- A request for a REFRESH job of an ENABLED entry and its answer (R30). -/
theorem requestRefresh_frame {e : EntryId} {s : State} (cls : JobClass) (tag : Option GroupId)
    (h : (entry e s).enable = .enabled) : RefreshFrame s (requestRefresh e cls tag s).1 := by
  rw [requestRefresh_fst]
  unfold requested
  split
  · exact (joined_frame _ e cls tag s).trans (.modEntry rfl rfl (.inl h))
  · have hmissed : RefreshFrame s (modEntry e (fun x => { x with missed := oneMore x.missed }) s) :=
      .modEntry rfl rfl (.inl h)
    exact hmissed.trans (.of_eq rfl rfl)
  · have hstale : RefreshFrame s (modEntry e (fun x =>
        { x with validity := toStale x.validity, lastRefresh := .segmentDown }) s) := .modEntry rfl rfl (.inl h)
    refine (hstale.trans (.modEntry (f := fun x => { x with faultMark := true }) (e := e) rfl rfl ?_)).trans
      (.of_eq rfl rfl)
    exact .inl ((hstale.enable e).trans h)

theorem setRefreshAgain_frame {e : EntryId} {s : State} (h : (entry e s).enable = .enabled) :
    RefreshFrame s (setRefreshAgain e s) := by
  unfold setRefreshAgain
  exact .modEntry rfl rfl (.inl h)

/-- An on-demand refresh of an ENABLED entry (R24, R31). -/
theorem demandRefresh_frame {e : EntryId} {s : State} (h : (entry e s).enable = .enabled) :
    RefreshFrame s (demandRefresh e s).1 := by
  have hpromote := promote_refreshFrame (entry e s).cfg.seg e s
  unfold demandRefresh
  split
  · exact requestRefresh_frame _ _ h
  · split
    · next s1 heq =>
      have hs1 : RefreshFrame s s1 := by rwa [heq] at hpromote
      have hurgent : RefreshFrame s1 (modEntry e (fun x => { x with refreshClass := .urgent }) s1) :=
        .modEntry rfl rfl (.inl ((hs1.enable e).trans h))
      exact hs1.trans hurgent
    · next s1 heq =>
      have hs1 : RefreshFrame s s1 := by rwa [heq] at hpromote
      exact hs1.trans (setRefreshAgain_frame ((hs1.enable e).trans h))
  · exact .refl s
  · exact setRefreshAgain_frame h
  · exact .refl s

/-! ## Sweeps -/

theorem raise_frame (v : Event) (s : State) : RefreshFrame s (raise v s) := .of_eq rfl rfl

theorem modGroup_frame (g : GroupId) (f : Group → Group) (s : State) : RefreshFrame s (modGroup g f s) := .of_eq rfl rfl

theorem askMember_frame (g : GroupId) (cls : JobClass) (s : State) (e : EntryId) :
    RefreshFrame s (askMember g cls s e) := by
  unfold askMember
  split
  · next h =>
    have hask := requestRefresh_frame cls (some g) h.2
    split <;> next heq =>
      rw [heq] at hask
      exact hask.trans (modGroup_frame _ _ _)
  · exact .refl s

theorem discardHeld_frame (g : GroupId) (s : State) (e : EntryId) : RefreshFrame s (discardHeld g s e) := by
  unfold discardHeld
  split
  · next h => exact .modEntry rfl rfl (.inr h.2)
  · exact .refl s

theorem publishHeld_frame (g : GroupId) (number : Half) (s : State) (e : EntryId) :
    RefreshFrame s (publishHeld g number s e) := by
  unfold publishHeld
  split
  · next h =>
    rw [publish, modEntry_modEntry]
    exact .modEntry rfl rfl (.inr h.2)
  · exact .refl s

theorem tornEnd_frame (g : GroupId) (s : State) : RefreshFrame s (tornEnd g s) := by
  unfold tornEnd
  exact ((RefreshFrame.foldl (discardHeld_frame g) (indices 128) s).trans (raise_frame _ _)).trans (modGroup_frame _ _ _)

theorem groupPublish_frame (g : GroupId) (s : State) : RefreshFrame s (groupPublish g s) := by
  unfold groupPublish
  exact ((RefreshFrame.foldl (publishHeld_frame g _) (indices 128) s).trans (raise_frame _ _)).trans
    (modGroup_frame _ _ _)

theorem beginSweep_frame (g : GroupId) (cls : JobClass) (s : State) : RefreshFrame s (beginSweep g cls s) := by
  have hasked := (modGroup_frame g (fun x => { x with state := .sweeping, torn := false, outstanding := 0 }) s).trans
    (RefreshFrame.foldl (askMember_frame g cls) (indices 128) _)
  unfold beginSweep
  dsimp only
  split
  · exact hasked.trans (tornEnd_frame _ _)
  · exact hasked

theorem restartSweep_frame (g : GroupId) (s : State) : RefreshFrame s (restartSweep g s) := by
  unfold restartSweep
  split
  · exact (modGroup_frame _ _ _).trans (beginSweep_frame _ _ _)
  · exact .refl s

theorem startSweep_frame (g : GroupId) (cls : JobClass) (s : State) : RefreshFrame s (startSweep g cls s) := by
  unfold startSweep
  dsimp only
  split
  · exact (beginSweep_frame _ _ _).trans (restartSweep_frame _ _)
  · exact beginSweep_frame _ _ _

theorem endSweep_frame (g : GroupId) (s : State) : RefreshFrame s (endSweep g s) := by
  unfold endSweep
  split
  · exact (tornEnd_frame _ _).trans (restartSweep_frame _ _)
  · exact (groupPublish_frame _ _).trans (restartSweep_frame _ _)

theorem requestSweep_frame (g : GroupId) (s : State) : RefreshFrame s (requestSweep g s) := by
  unfold requestSweep
  split
  · exact startSweep_frame _ _ _
  · exact modGroup_frame _ _ _

theorem withdrawn_frame (g : Option GroupId) (wasHeld : Bool) (s : State) : RefreshFrame s (withdrawn g wasHeld s) := by
  cases g with
  | none => exact .refl s
  | some g =>
    dsimp only [withdrawn]
    generalize (if wasHeld = true then (group g s).outstanding else (group g s).outstanding - 1) = n
    split
    · exact (modGroup_frame _ _ _).trans (endSweep_frame _ _)
    · exact modGroup_frame _ _ _

end Sys2Proof.Proofs
end

section
/-! The entry commands: ENTRY_ACK_FAULT, ENTRY_ENABLE and ENTRY_DISABLE at their owners, each step as the statements say it. -/

namespace Sys2Proof.Proofs

open Sys2Proof.Machine Sys2Proof.Safety Sys2Proof.Spec

/-! ## The Command Port with the index of a record as argument -/

theorem indexOf_indexByte {n : Nat} (hn : n ≤ 256) (i : Fin n) : indexOf n (indexByte i).toNat = some i := by
  have hi : (indexByte i).toNat = i.val := by
    rw [indexByte, BitVec.toNat_ofNat, Nat.mod_eq_of_lt (by omega)]
  rw [hi, indexOf_val]

/-- A command whose argument names a record is answered by its owner, which finds the command word kept (R146, R147). -/
theorem portCommand_indexByte {n : Nat} (hn : n ≤ 256) (code : Byte) (i : Fin n) (tag : Half)
    (owner : Fin n → State → State × Answer) {s : State} (hs : Ready s) :
    portCommand code (indexByte i) tag (indexOf n (indexByte i).toNat) owner s
      = answerCommand code tag (owner i (issued code (indexByte i) tag s)).2
          (owner i (issued code (indexByte i) tag s)).1 := by
  rw [indexOf_indexByte hn, portCommand_ready code (indexByte i) tag i owner hs.1 hs.2]
  rfl

theorem modEntry_issued (code arg : Byte) (tag : Half) (e : EntryId) (f : Entry → Entry) (s : State) :
    modEntry e f (issued code arg tag s) = issued code arg tag (modEntry e f s) := rfl

/-- A request for a REFRESH job neither reads nor changes the command word. -/
theorem requested_issued (code arg : Byte) (tag : Half) (e : EntryId) (cls : JobClass) (g : Option GroupId) (s : State) :
    requested e cls g (issued code arg tag s) = issued code arg tag (requested e cls g s) := by
  have hanswer : answerOf (entry e (issued code arg tag s)).cfg.seg cls (issued code arg tag s)
      = answerOf (entry e s).cfg.seg cls s := rfl
  unfold requested
  rw [hanswer]
  cases answerOf (entry e s).cfg.seg cls s <;> rfl

/-! ## ENTRY_ACK_FAULT and the fault bitmap (R18, R19) -/

/-- A word built up bit by bit shows, at each bit, whether its index is among those listed. -/
theorem getLsbD_foldl_setBits {n : Nat} (p : Fin n → Bool) (l : List (Fin n)) (w : Word) (i : Nat) (hi : i < 32) :
    (l.foldl (fun w j => if p j = true then w ||| (1#32 <<< j.val) else w) w).getLsbD i
      = (w.getLsbD i || l.any fun j => p j && j.val == i) := by
  induction l generalizing w with
  | nil => simp
  | cons j l ih =>
    have hbit : (1#32 <<< j.val).getLsbD i = (j.val == i) := by
      rw [BitVec.getLsbD_shiftLeft, BitVec.getLsbD_one, Bool.eq_iff_iff]
      simp only [hi, decide_true, Bool.true_and, Bool.and_eq_true, Bool.not_eq_true', decide_eq_false_iff_not,
        decide_eq_true_eq, beq_iff_eq]
      omega
    rw [List.foldl_cons, ih, List.any_cons]
    cases p j
    · simp
    · simp [hbit, Bool.or_assoc]

/-- Bit j of bitmap word k is the mark of entry 32k + j (R18). -/
theorem getLsbD_faultBitmapWord (k : Fin 4) (j : Fin 32) (s : State) :
    (faultBitmapWord k s).getLsbD j.val = (entry ⟨32 * k.val + j.val, by omega⟩ s).faultMark := by
  unfold faultBitmapWord
  rw [getLsbD_foldl_setBits (fun j => (entry ⟨32 * k.val + j.val, by omega⟩ s).faultMark) _ _ _ j.isLt, Bool.eq_iff_iff]
  simp only [BitVec.getLsbD_zero, Bool.false_or, List.any_eq_true, Bool.and_eq_true, beq_iff_eq, indices,
    List.mem_finRange, true_and]
  constructor
  · rintro ⟨i, hmark, hi⟩
    obtain rfl : i = j := Fin.ext hi
    exact hmark
  · exact fun hmark => ⟨j, hmark, rfl⟩

/-- Settles O18: the command clears the mark at its owner, and the bitmap is a view of the marks. -/
theorem acknowledgeClearsTheMark : Obligations.AcknowledgeClearsTheMark := by
  refine ⟨fun e tag s hs => ?_, fun k j s => getLsbD_faultBitmapWord k j s⟩
  exact congrArg Host.Outcome.next (portCommand_indexByte (by decide) 0x05#8 e tag entryAckFault hs)

/-! ## ENTRY_ENABLE (R20) -/

/-- The checks of R20 on the stored configuration. -/
theorem entryConfigValid_iff (c : EntryConfig) :
    entryConfigValid c = true ↔ 1 ≤ c.length.toNat ∧ c.length.toNat ≤ 32 ∧ c.offsetWidth ≠ 3#2 ∧ c.mode ≠ 3#2
      ∧ (c.group ≠ 0#4 → c.mode = 0#2) ∧ (c.verify = true → c.mode = 2#2) := by
  simp only [entryConfigValid, Bool.and_eq_true, Bool.or_eq_true, decide_eq_true_eq, bne_iff_ne, beq_iff_eq,
    Bool.not_eq_true', and_assoc, or_iff_not_imp_left, Bool.not_eq_false, ne_eq]

theorem entryEnable_badState {e : EntryId} {s : State} (h : (entry e s).enable ≠ .disabled) :
    entryEnable e s = (s, .refused .badState) := by
  rw [entryEnable, if_pos h]

theorem entryEnable_badConfig {e : EntryId} {s : State} (h : (entry e s).enable = .disabled)
    (hc : entryConfigValid (entry e s).cfg = false) : entryEnable e s = (s, .refused .badConfig) := by
  rw [entryEnable, if_neg (not_not_intro h), if_pos hc]

theorem entryEnable_accepted {e : EntryId} {s : State} (h : (entry e s).enable = .disabled)
    (hc : entryConfigValid (entry e s).cfg = true) :
    entryEnable e s = (informScheduler e (modEntry e enabledEntry s), .accepted) := by
  rw [entryEnable, if_neg (not_not_intro h), if_neg (by simp [hc])]

/-- The member count is counted from the entries (R32). -/
theorem memberCount_congr {s t : State} (g : GroupId) (h : t.entries = s.entries) : memberCount g t = memberCount g s := by
  unfold memberCount entry
  rw [h]

/-- The expiry of an IDLE entry's due timer (R28). -/
theorem entryExpiry_idle {e : EntryId} {s : State} (due : Word) (h : (entry e s).refresh = .idle) :
    entryExpiry e due s
      = requested e .routine none (modEntry e (fun x => { x with dueTime := some (due + x.cfg.period.setWidth 32) }) s) := by
  have hidle : (entry e (modEntry e (fun x => { x with dueTime := some (due + x.cfg.period.setWidth 32) }) s)).refresh
      = .idle := by rw [entry_modEntry_same]; exact h
  unfold entryExpiry
  dsimp only
  rw [hidle, ← requestRefresh_fst]

theorem informScheduler_ungrouped {e : EntryId} {s : State} (hg : (entry e s).cfg.groupId = none) :
    informScheduler e s = if (entry e s).cfg.period = 0#16 then s else entryExpiry e s.timebase s := by
  rw [informScheduler, hg]

theorem informScheduler_grouped {e : EntryId} {g : GroupId} {s : State} (hg : (entry e s).cfg.groupId = some g) :
    informScheduler e s
      = if memberCount g s = 1 ∧ (group g s).period ≠ 0#16 then groupExpiry g s.timebase s else s := by
  rw [informScheduler, hg]
  rfl

/-- The entry's record when ENTRY_ENABLE is accepted. -/
theorem enabledEntry_eq : enabledEntry = fun x =>
    { x with
      enable := .enabled, validity := .none, publishSeq := 0#16, sweepNumber := 0#16, publishTime := 0#32
      missed := 0#8, published := Vector.replicate 32 0#8, refresh := .idle, write := .none, writeOvertaken := false
      refreshAgain := false, writeAgain := false, lastRefresh := .noneRecorded, lastWrite := .noneRecorded } := by
  funext x
  rw [enabledEntry, fill_nil]

/-- Settles O15: the checks of R20 in their order, then the cases of the Refresh Scheduler. -/
theorem entryEnableStartsTheEntry : Obligations.EntryEnableStartsTheEntry := by
  intro e tag s hs
  dsimp only
  rw [← enabledEntry_eq, ← entryConfigValid_iff, ← groupId_eq_none_iff]
  have hrun : exec (.entryEnable (indexByte e) tag) s
      = .next (answerCommand 0x01#8 tag (entryEnable e (issued 0x01#8 (indexByte e) tag s)).2
          (entryEnable e (issued 0x01#8 (indexByte e) tag s)).1) :=
    congrArg Host.Outcome.next (portCommand_indexByte (by decide) 0x01#8 e tag entryEnable hs)
  rw [hrun]
  set i := issued 0x01#8 (indexByte e) tag s with hi
  have hcfg : (entry e (modEntry e enabledEntry i)).cfg = (entry e s).cfg := by rw [entry_modEntry_same]; rfl
  have hcount : ∀ g, memberCount g (modEntry e enabledEntry i) = memberCount g (modEntry e enabledEntry s) :=
    fun g => memberCount_congr g rfl
  refine ⟨fun h => ?_, fun h hc => ?_, fun h hc hg hp => ?_, fun h hc hg hp => ?_, fun g h hc hg hstart => ?_,
    fun g h hc hg hone hp => ?_⟩
  · rw [entryEnable_badState (s := i) h]
    rfl
  · rw [entryEnable_badConfig (s := i) h (Bool.eq_false_iff.2 hc)]
    rfl
  · rw [entryEnable_accepted (s := i) h hc, informScheduler_ungrouped (by rw [hcfg, hg]), hcfg, if_pos hp]
    rfl
  · have hidle : (entry e (modEntry e enabledEntry i)).refresh = .idle := by rw [entry_modEntry_same]; rfl
    rw [entryEnable_accepted (s := i) h hc, informScheduler_ungrouped (by rw [hcfg, hg]), hcfg, if_neg hp,
      entryExpiry_idle _ hidle]
    rw [hi, modEntry_issued, modEntry_issued, requested_issued]
    rfl
  · have hno : ¬ (memberCount g (modEntry e enabledEntry i) = 1 ∧ (group g (modEntry e enabledEntry i)).period ≠ 0#16) :=
      fun hyes => hstart.elim (fun hn => hn ((hcount g).symm.trans hyes.1)) (fun hz => hyes.2 hz)
    rw [entryEnable_accepted (s := i) h hc, informScheduler_grouped (by rw [hcfg, hg]), if_neg hno]
    rfl
  · have hyes : memberCount g (modEntry e enabledEntry i) = 1 ∧ (group g (modEntry e enabledEntry i)).period ≠ 0#16 :=
      ⟨(hcount g).trans hone, hp⟩
    rw [entryEnable_accepted (s := i) h hc, informScheduler_grouped (by rw [hcfg, hg]), if_pos hyes]
    rfl

end Sys2Proof.Proofs
end

section
/-! ENTRY_DISABLE (R21 to R23): each step as the statement says it, and what each leaves of the entry itself. -/

namespace Sys2Proof.Proofs

open Sys2Proof.Machine Sys2Proof.Safety Sys2Proof.Spec

theorem entry_answerCommand (code : Byte) (tag : Half) (a : Answer) (e : EntryId) (s : State) :
    entry e (answerCommand code tag a s) = entry e s := by
  cases a <;> rfl

/-- The entry of a member that has withdrawn: DRAINING and IDLE, it takes no part in what the sweep's end does (R41). -/
theorem entry_withdrawn {e : EntryId} {s : State} (g : Option GroupId) (wasHeld : Bool)
    (he : (entry e s).enable = .draining) (hr : (entry e s).refresh = .idle) :
    entry e (withdrawn g wasHeld s) = entry e s :=
  (withdrawn_frame g wasHeld s).bystander e (by rw [he]; decide) (by rw [hr]; decide)

/-- The entry on its way to DISABLED (R23): it gets there where no job of it is left. -/
theorem entry_drained {e : EntryId} {s : State} (he : (entry e s).enable = .draining) (noJob : Prop) [Decidable noJob]
    (hnoJob : noJob ↔ (entry e s).refresh = .idle ∧ (entry e s).write ≠ .pending ∧ (entry e s).write ≠ .active) :
    entry e (drained e s)
      = { entry e s with
          enable := if noJob then .disabled else .draining, write := if noJob then .none else (entry e s).write
          validity := if noJob then .none else (entry e s).validity
          faultMark := if noJob then false else (entry e s).faultMark } := by
  unfold drained
  dsimp only
  rw [he]
  simp only [true_and, ← hnoJob]
  by_cases h : noJob
  · simp only [h, if_true]
    split
    · rw [entry_modEntry_same]
    · split
      · rw [entry_modGroup, entry_modEntry_same]
      · rw [entry_modEntry_same]
  · simp only [h, if_false, ← he]

theorem flags_drained (e : EntryId) (s : State) : (drained e s).flags = s.flags := by
  unfold drained
  dsimp only
  split
  · split
    · rfl
    · split <;> rfl
  · rfl

/-! ## The steps of R21 -/

/-- The answer to the removal request for a QUEUED refresh (R21 step 4, R22). -/
theorem removeQueuedRefresh_eq (e : EntryId) (s : State) :
    removeQueuedRefresh e s
      = if (entry e s).refresh = .queued ∧ holds (.refresh e) (queue (entry e s).cfg.seg s) = true then
          withdrawn (entry e s).cfg.groupId false
            (modEntry e (fun x => { x with refresh := .idle }) (left (entry e s).cfg.seg (.refresh e) s))
        else s := by
  unfold removeQueuedRefresh
  rw [removeJob_eq]
  by_cases hq : (entry e s).refresh = .queued
  · cases hh : holds (.refresh e) (queue (entry e s).cfg.seg s)
    · simp [hq]
    · simp [hq, withdrawMember_eq]
  · simp [hq]

/-- The answer to the removal request for a PENDING write (R21 step 4, R22). -/
theorem removePendingWrite_eq (e : EntryId) (s : State) :
    removePendingWrite e s
      = if (entry e s).write = .pending ∧ holds (.write e) (queue (entry e s).cfg.seg s) = true then
          modEntry e (fun x => { x with write := .none }) (left (entry e s).cfg.seg (.write e) s)
        else s := by
  unfold removePendingWrite
  rw [removeJob_eq]
  by_cases hq : (entry e s).write = .pending
  · cases hh : holds (.write e) (queue (entry e s).cfg.seg s) <;> simp [hq]
  · simp [hq]

/-- A HELD member withdraws (R21 step 5). -/
theorem withdrawHeld_eq (e : EntryId) (s : State) :
    withdrawHeld e s
      = if (entry e s).refresh = .held then withdrawn (entry e s).cfg.groupId true (modEntry e released s) else s := by
  have hreleased : (fun x : Entry => { x with refresh := .idle, held := fill 32 [] }) = released := by
    funext x
    rw [fill_nil]
    rfl
  unfold withdrawHeld
  rw [withdrawMember_eq, hreleased]

/-! ## The entry after each step -/

theorem entry_removeQueuedRefresh {e : EntryId} {s : State} (he : (entry e s).enable = .draining) :
    entry e (removeQueuedRefresh e s)
      = { entry e s with
          refresh :=
            if (entry e s).refresh = .queued ∧ holds (.refresh e) (queue (entry e s).cfg.seg s) = true then .idle
            else (entry e s).refresh } := by
  have hentry : entry e (modEntry e (fun x => { x with refresh := .idle }) (left (entry e s).cfg.seg (.refresh e) s))
      = { entry e s with refresh := .idle } := entry_modEntry_same _ _ _
  rw [removeQueuedRefresh_eq]
  split
  · rw [entry_withdrawn _ _ (by rw [hentry]; exact he) (by rw [hentry]), hentry]
  · rfl

/-- The removal of a REFRESH job, with the sweep's end that may follow, leaves the WRITE jobs of every queue. -/
theorem holds_write_removeQueuedRefresh (e d : EntryId) (q : SegId) (s : State) :
    holds (.write d) (queue q (removeQueuedRefresh e s)) = holds (.write d) (queue q s) := by
  rw [removeQueuedRefresh_eq]
  split
  · rw [(withdrawn_frame _ _ _).writes, queue_modEntry, (left_frame _ _ _).writes]
  · rfl

theorem entry_removePendingWrite (e : EntryId) (s : State) :
    entry e (removePendingWrite e s)
      = { entry e s with
          write :=
            if (entry e s).write = .pending ∧ holds (.write e) (queue (entry e s).cfg.seg s) = true then .none
            else (entry e s).write } := by
  rw [removePendingWrite_eq]
  split
  · exact entry_modEntry_same _ _ _
  · rfl

theorem entry_withdrawHeld {e : EntryId} {s : State} (he : (entry e s).enable = .draining) :
    entry e (withdrawHeld e s)
      = { entry e s with
          refresh := if (entry e s).refresh = .held then .idle else (entry e s).refresh
          held := if (entry e s).refresh = .held then Vector.replicate 32 0#8 else (entry e s).held } := by
  have hentry : entry e (modEntry e released s) = released (entry e s) := entry_modEntry_same _ _ _
  rw [withdrawHeld_eq]
  split
  · rw [entry_withdrawn _ _ (by rw [hentry]; exact he) (by rw [hentry]; rfl), hentry]
    rfl
  · rfl

/-- No removal makes an entry HELD or ends its being HELD. -/
theorem held_after_removals_iff {e : EntryId} {s : State} (he : (entry e s).enable = .draining) :
    (entry e (removePendingWrite e (removeQueuedRefresh e s))).refresh = .held ↔ (entry e s).refresh = .held := by
  rw [entry_removePendingWrite, entry_removeQueuedRefresh he]
  dsimp only
  by_cases hq : (entry e s).refresh = .queued ∧ holds (.refresh e) (queue (entry e s).cfg.seg s) = true
  · simp [hq]
  · rw [if_neg hq]

/-- Steps 4 and 5 of R21 together. A refresh that was QUEUED does not become HELD by the removal, so the two steps do not
meet. -/
theorem entry_removedAndWithdrawn {e : EntryId} {s : State} (he : (entry e s).enable = .draining) :
    entry e (withdrawHeld e (removePendingWrite e (removeQueuedRefresh e s)))
      = { entry e s with
          refresh :=
            if (entry e s).refresh = .held
                ∨ (entry e s).refresh = .queued ∧ holds (.refresh e) (queue (entry e s).cfg.seg s) = true then .idle
            else (entry e s).refresh
          write :=
            if (entry e s).write = .pending ∧ holds (.write e) (queue (entry e s).cfg.seg s) = true then .none
            else (entry e s).write
          held := if (entry e s).refresh = .held then Vector.replicate 32 0#8 else (entry e s).held } := by
  have hremoved := entry_removeQueuedRefresh he
  have hwritten := entry_removePendingWrite e (removeQueuedRefresh e s)
  rw [hremoved, holds_write_removeQueuedRefresh] at hwritten
  rw [entry_withdrawHeld (by rw [hwritten]; exact he), hwritten]
  cases hr : (entry e s).refresh with
  | queued => cases holds (.refresh e) (queue (entry e s).cfg.seg s) <;> simp
  | idle | active | held => simp

/-! ## The steps, by the entry as it stood before them -/

theorem removeQueuedRefresh_of_entry {e : EntryId} {s : State} {x : Entry} (hr : (entry e s).refresh = x.refresh)
    (hc : (entry e s).cfg = x.cfg) :
    removeQueuedRefresh e s
      = if x.refresh = .queued ∧ holds (.refresh e) (queue x.cfg.seg s) = true then
          withdrawn x.cfg.groupId false (modEntry e (fun x => { x with refresh := .idle }) (left x.cfg.seg (.refresh e) s))
        else s := by
  rw [removeQueuedRefresh_eq, hr, hc]

theorem removePendingWrite_of_entry {e : EntryId} {s : State} {x : Entry} (hw : (entry e s).write = x.write)
    (hc : (entry e s).cfg = x.cfg) :
    removePendingWrite e s
      = if x.write = .pending ∧ holds (.write e) (queue x.cfg.seg s) = true then
          modEntry e (fun x => { x with write := .none }) (left x.cfg.seg (.write e) s)
        else s := by
  rw [removePendingWrite_eq, hw, hc]

theorem withdrawHeld_of_entry {e : EntryId} {s : State} {x : Entry}
    (hr : (entry e s).refresh = .held ↔ x.refresh = .held) (hc : (entry e s).cfg = x.cfg) :
    withdrawHeld e s
      = if x.refresh = .held then withdrawn x.cfg.groupId true (modEntry e released s) else s := by
  simp only [withdrawHeld_eq, hr, hc]

/-! ## The command -/

theorem entryDisable_badState {e : EntryId} {s : State} (h : (entry e s).enable ≠ .enabled) :
    entryDisable e s = (s, .refused .badState) := by
  rw [entryDisable, if_pos h]

theorem entryDisable_accepted {e : EntryId} {s : State} (h : (entry e s).enable = .enabled) :
    entryDisable e s
      = (drained e (withdrawHeld e (removePendingWrite e (removeQueuedRefresh e (modEntry e drainingEntry s)))),
          .accepted) := by
  rw [entryDisable, if_neg (not_not_intro h), reachDisabled_eq]

/-- Settles O20: the steps of R21 in their order; then the entry they leave, on which the ends of sweeps have no effect. -/
theorem entryDisableDrainsTheEntry : Obligations.EntryDisableDrainsTheEntry := by
  intro e tag s hs
  dsimp only
  have hrun : exec (.entryDisable (indexByte e) tag) s
      = .next (answerCommand 0x02#8 tag (entryDisable e (issued 0x02#8 (indexByte e) tag s)).2
          (entryDisable e (issued 0x02#8 (indexByte e) tag s)).1) :=
    congrArg Host.Outcome.next (portCommand_indexByte (by decide) 0x02#8 e tag entryDisable hs)
  rw [hrun]
  set i := issued 0x02#8 (indexByte e) tag s with hi
  set s1 := modEntry e drainingEntry i with hs1
  have h1 : entry e s1 = drainingEntry (entry e s) := entry_modEntry_same _ _ _
  have hdraining : (entry e s1).enable = .draining := by rw [h1]; rfl
  refine ⟨fun h => ?_, fun h => ?_, fun h => ?_⟩
  · rw [entryDisable_badState (s := i) h]
    rfl
  · have hcfg2 : (entry e (removeQueuedRefresh e s1)).cfg = (entry e s).cfg := by
      rw [entry_removeQueuedRefresh hdraining, h1]
      rfl
    have hwrite2 : (entry e (removeQueuedRefresh e s1)).write = (entry e s).write := by
      rw [entry_removeQueuedRefresh hdraining, h1]
      rfl
    have hcfg3 : (entry e (removePendingWrite e (removeQueuedRefresh e s1))).cfg = (entry e s).cfg := by
      rw [entry_removePendingWrite]
      exact hcfg2
    have hheld3 : (entry e (removePendingWrite e (removeQueuedRefresh e s1))).refresh = .held
        ↔ (entry e s).refresh = .held := by
      rw [held_after_removals_iff hdraining, h1]
      rfl
    rw [entryDisable_accepted (s := i) h, withdrawHeld_of_entry hheld3 hcfg3,
      removePendingWrite_of_entry hwrite2 hcfg2,
      removeQueuedRefresh_of_entry (x := entry e s) (by rw [h1]; rfl) (by rw [h1]; rfl)]
    rfl
  · rw [entryDisable_accepted (s := i) h]
    refine ⟨_, rfl, ?_⟩
    have hentry := entry_removedAndWithdrawn hdraining
    rw [h1] at hentry
    rw [entry_answerCommand, entry_drained (by rw [hentry]; rfl) _ (by rw [hentry]), hentry]
    rfl

end Sys2Proof.Proofs
end

section
/-! Reports taken at an entry: start reports (R15, R51) and the completions taken in DRAINING (R23). -/

namespace Sys2Proof.Proofs

open Sys2Proof.Machine Sys2Proof.Safety Sys2Proof.Spec

/-! ## The first report in flight -/

theorem splitAtFirst_append_cons {α : Type} {p : α → Bool} {before after : List α} {x : α}
    (hb : ∀ y ∈ before, p y = false) (hx : p x = true) :
    splitAtFirst p (before ++ x :: after) = some (before, x, after) := by
  induction before with
  | nil => simp [splitAtFirst, hx]
  | cons y ys ih =>
    have hy : p y = false := hb y (by simp)
    simp [splitAtFirst, hy, ih fun z hz => hb z (by simp [hz])]

/-- The first report in flight to an entry is the one its events find (R107). -/
theorem splitAtFirst_of_firstReport {e : EntryId} {r : Report} {s s0 : State} (h : FirstReport e r s s0) :
    ∃ before after, s.reports = before ++ r :: after ∧ s0 = { s with reports := before ++ after }
      ∧ splitAtFirst (reportsToEntry e) s.reports = some (before, r, after) := by
  obtain ⟨before, after, hreports, hbefore, hr, hs0⟩ := h
  refine ⟨before, after, hreports, hs0, ?_⟩
  rw [hreports]
  refine splitAtFirst_append_cons (fun d hd => ?_) ?_
  · simpa [reportsToEntry] using hbefore d hd
  · simpa [reportsToEntry] using hr

theorem outOfReset_released {f : State → State} {s : State} (h : s.inReset = false) : outOfReset f s = f s := by
  rw [outOfReset, h]
  rfl

/-! ## Start reports (R15, R51) -/

theorem modCtl_modEntry (q : SegId) (f : Controller → Controller) (e : EntryId) (g : Entry → Entry) (s : State) :
    modCtl q f (modEntry e g s) = modEntry e g (modCtl q f s) := rfl

theorem modActive_modEntry (q : SegId) (f : ActiveJob → ActiveJob) (e : EntryId) (g : Entry → Entry) (s : State) :
    modActive q f (modEntry e g s) = modEntry e g (modActive q f s) := rfl

/-- The change of the active job and that of the transmit buffer do not meet. -/
theorem modActive_modCtl_tx (q : SegId) (f : ActiveJob → ActiveJob) (b : Vector Byte 32) (s : State) :
    modActive q f (modCtl q (fun c => { c with tx := b }) s) = modCtl q (fun c => { c with tx := b }) (modActive q f s) := by
  rw [modActive, modCtl_modCtl, modActive, modCtl_modCtl]

/-- The controller's part of a refresh's start report: the job may begin. -/
theorem startTaken_refresh (e d : EntryId) (s : State) :
    startTaken e (.refresh d) s
      = if (ctl (entry e s).cfg.seg s).active.map (fun a => a.job.ref) = some (.refresh d) then
          modActive (entry e s).cfg.seg (fun a => { a with started := true }) s
        else s := by
  unfold startTaken
  cases hactive : (ctl (entry e s).cfg.seg s).active with
  | none => simp [hactive]
  | some a => simp [hactive]

/-- The controller's part of a write's start report: the job may begin, with its copy of the staging bytes. -/
theorem startTaken_write (e d : EntryId) (s : State) :
    startTaken e (.write d) s
      = if (ctl (entry e s).cfg.seg s).active.map (fun a => a.job.ref) = some (.write d) then
          modCtl (entry e s).cfg.seg
            (fun c => { c with tx := fill 32 (firstBytes (entry e s).cfg.length.toNat (entry e s).staging) })
            (modActive (entry e s).cfg.seg (fun a => { a with started := true }) s)
        else s := by
  unfold startTaken
  cases hactive : (ctl (entry e s).cfg.seg s).active with
  | none => simp [hactive]
  | some a => simp [hactive, modActive_modCtl_tx]

theorem startReportEvent_eq {e : EntryId} {r : JobRef} {s s0 : State} (h : FirstReport e (.started r) s s0) :
    startReportEvent e s = startTaken e r (modEntry e (startedEntry r) s0) := by
  obtain ⟨before, after, -, rfl, hsplit⟩ := splitAtFirst_of_firstReport h
  unfold startReportEvent
  rw [hsplit]

/-- Settles O24: the entry's field and the controller's job change apart, so the order of the two does not matter. -/
theorem startReportsMakeJobsActive : Obligations.StartReportsMakeJobsActive := by
  intro e r s s0 hs hfirst
  have hrun : exec (.startReport e) s = .next (startTaken e r (modEntry e (startedEntry r) s0)) := by
    rw [← startReportEvent_eq hfirst]
    exact congrArg Host.Outcome.next (outOfReset_released hs)
  obtain ⟨before, after, -, rfl, -⟩ := splitAtFirst_of_firstReport hfirst
  set s0 : State := { s with reports := before ++ after } with hs0
  dsimp only
  have hcfg : (entry e (modEntry e (startedEntry r) s0)).cfg = (entry e s).cfg := by
    rw [entry_modEntry_same]
    cases r <;> rfl
  have hstaging : (entry e (modEntry e (startedEntry r) s0)).staging = (entry e s).staging := by
    rw [entry_modEntry_same]
    cases r <;> rfl
  have hctl : ctl (entry e s).cfg.seg (modEntry e (startedEntry r) s0) = ctl (entry e s).cfg.seg s := rfl
  rw [hrun]
  constructor
  · rintro rfl
    rw [startTaken_refresh, hcfg, hctl]
    split
    · rw [modActive_modEntry]
      rfl
    · rfl
  · rintro rfl
    rw [startTaken_write, hcfg, hstaging, hctl]
    split
    · rw [modActive_modEntry, modCtl_modEntry]
      rfl
    · rfl

/-! ## Completions taken in DRAINING (R23) -/

/-- Completions taken in the order of their flush do not wait for one another (R66). -/
theorem any_mustPrecede_of_inFlushOrder {c : Completion} {s : State} {before after : List Report}
    (h : InFlushOrder c s) (hreports : s.reports = before ++ .completed c :: after) :
    before.any (mustPrecede c) = false := by
  rw [List.any_eq_false]
  intro r hr
  cases r with
  | started _ => simp [mustPrecede]
  | completed d =>
    simp only [mustPrecede, Bool.and_eq_true, beq_iff_eq, bne_iff_ne]
    rintro ⟨⟨⟨⟨hc, hd⟩, htag⟩, hsame⟩, hseg⟩
    exact h hc htag before after hreports d hr hd hsame hseg

/-- The completion of a refresh taken in DRAINING, whatever it carries. -/
theorem refreshDrained_eq (e : EntryId) (c : Completion) (s : State) :
    refreshDrained e c s
      = drained e (withdrawn c.tag false (modEntry e (fun x => { x with refresh := .idle }) s)) := by
  rw [refreshDrained, reachDisabled_eq, withdrawMember_eq]

theorem refreshCompletionEvent_draining {e : EntryId} {c : Completion} {s s0 : State}
    (hfirst : FirstReport e (.completed c) s s0) (horder : InFlushOrder c s) (he : (entry e s).enable = .draining)
    (hc : c.ref = .refresh e) : refreshCompletionEvent e s = refreshDrained e c s0 := by
  obtain ⟨before, after, hreports, rfl, hsplit⟩ := splitAtFirst_of_firstReport hfirst
  have hnone := any_mustPrecede_of_inFlushOrder horder hreports
  have he0 : (entry e { s with reports := before ++ after }).enable = .draining := he
  unfold refreshCompletionEvent
  simp only [hsplit, takeRefresh, he0, he, hc, hnone, or_true, and_self, if_true]

theorem memberRefreshCompletionEvent_draining {e : EntryId} {c : Completion} {s s0 : State}
    (hfirst : FirstReport e (.completed c) s s0) (horder : InFlushOrder c s) (he : (entry e s).enable = .draining)
    (hc : c.ref = .refresh e) (htag : c.tag ≠ none) : memberRefreshCompletionEvent e s = refreshDrained e c s0 := by
  obtain ⟨before, after, hreports, rfl, hsplit⟩ := splitAtFirst_of_firstReport hfirst
  obtain ⟨g, hg⟩ := Option.ne_none_iff_exists'.1 htag
  have hnone := any_mustPrecede_of_inFlushOrder horder hreports
  have he0 : (entry e { s with reports := before ++ after }).enable = .draining := he
  unfold memberRefreshCompletionEvent
  simp only [hsplit, hg, takeMemberRefresh, he0, hc, hnone, and_self, if_true]

theorem writeCompletionEvent_draining {e : EntryId} {c : Completion} {s s0 : State}
    (hfirst : FirstReport e (.completed c) s s0) (he : (entry e s).enable = .draining) (hc : c.ref = .write e) :
    writeCompletionEvent e s = drained e (modEntry e (fun x => { x with write := .none }) s0) := by
  obtain ⟨before, after, -, rfl, hsplit⟩ := splitAtFirst_of_firstReport hfirst
  unfold writeCompletionEvent
  simp only [hsplit, he, hc, if_true, reachDisabled_eq]

/-- Settles O27: each completion's event is the discard of R23, and the ends of sweeps have no effect on the entry. -/
theorem drainingCompletionsAreDiscarded : Obligations.DrainingCompletionsAreDiscarded := by
  intro e c s s0 hs hfirst horder he
  have hentry0 : entry e s0 = entry e s ∧ s0.flags = s.flags := by
    obtain ⟨before, after, -, rfl, -⟩ := splitAtFirst_of_firstReport hfirst
    exact ⟨rfl, rfl⟩
  obtain ⟨hentry, hflags⟩ := hentry0
  dsimp only
  refine ⟨fun hc => ?_, fun hc => ?_⟩
  · have hidle : entry e (modEntry e (fun x => { x with refresh := .idle }) s0) = { entry e s with refresh := .idle } := by
      rw [entry_modEntry_same, hentry]
    have hwithdrawn := entry_withdrawn (e := e) c.tag false (by rw [hidle]; exact he) (by rw [hidle])
    rw [hidle] at hwithdrawn
    refine ⟨?_, fun htag => ?_, fun htag => ?_, ?_⟩
    · rw [← refreshDrained_eq, ← refreshCompletionEvent_draining hfirst horder he hc]
      exact congrArg Host.Outcome.next (outOfReset_released hs)
    · rw [← refreshDrained_eq, ← memberRefreshCompletionEvent_draining hfirst horder he hc htag]
      exact congrArg Host.Outcome.next (outOfReset_released hs)
    · rw [flags_drained, htag]
      exact hflags
    · rw [entry_drained (noJob := (entry e s).write ≠ .pending ∧ (entry e s).write ≠ .active)
        (by rw [hwithdrawn]; exact he) (by rw [hwithdrawn]; simp), hwithdrawn]
  · have hnone : entry e (modEntry e (fun x => { x with write := .none }) s0) = { entry e s with write := .none } := by
      rw [entry_modEntry_same, hentry]
    refine ⟨?_, ?_, ?_⟩
    · rw [← writeCompletionEvent_draining hfirst he hc]
      exact congrArg Host.Outcome.next (outOfReset_released hs)
    · rw [flags_drained]
      exact hflags
    · rw [entry_drained (noJob := (entry e s).refresh = .idle) (by rw [hnone]; exact he) (by rw [hnone]; simp), hnone]
      simp

end Sys2Proof.Proofs
end

section
/-! Device notices (R24, R37): the three passes over entries and groups. Entries keep configuration and enable state in each, so
an entry matches the notice in every pass or in none. -/

namespace Sys2Proof.Proofs

open Sys2Proof.Machine Sys2Proof.Safety Sys2Proof.Spec

/-! ## Passes over the records -/

/-- Two passes agree where they do the same in every state that has an invariant, and every operation keeps it. -/
theorem foldl_eq_of_invariant {α : Type} {f g : State → α → State} (P : State → Prop)
    (hfg : ∀ t a, P t → f t a = g t a) (hP : ∀ t a, P t → P (g t a)) (l : List α) {s : State} (hs : P s) :
    l.foldl f s = l.foldl g s ∧ P (l.foldl g s) := by
  induction l generalizing s with
  | nil => exact ⟨rfl, hs⟩
  | cons a l ih =>
    rw [List.foldl_cons, List.foldl_cons, hfg s a hs]
    exact ih (hP s a hs)

theorem mem_indices {n : Nat} (i : Fin n) : i ∈ indices n := List.mem_finRange i

/-- An entry after a pass that changes each entry listed by itself. -/
theorem entry_foldl_modEntry (f : EntryId → Entry → Entry) (j : EntryId) :
    ∀ (l : List EntryId) (s : State), l.Nodup →
      entry j (l.foldl (fun t e => modEntry e (f e) t) s) = if j ∈ l then f j (entry j s) else entry j s
  | [], s, _ => by simp
  | e :: l, s, hl => by
    obtain ⟨hel, hl'⟩ := List.nodup_cons.1 hl
    rw [List.foldl_cons, entry_foldl_modEntry f j l _ hl', entry_modEntry]
    by_cases hj : j = e
    · subst hj
      simp [hel]
    · simp [hj]

/-- A pass that changes entries changes nothing else. -/
theorem foldl_modEntry_frame (f : EntryId → Entry → Entry) (l : List EntryId) (s : State) :
    l.foldl (fun t e => modEntry e (f e) t) s
      = { s with entries := (l.foldl (fun t e => modEntry e (f e) t) s).entries } := by
  induction l generalizing s with
  | nil => rfl
  | cons e l ih =>
    rw [List.foldl_cons, ih]
    rfl

/-- A pass over all entries that changes each by itself changes all at once. -/
theorem foldl_modEntry_eq_tabulate (f : EntryId → Entry → Entry) (s : State) :
    (indices 128).foldl (fun t e => modEntry e (f e) t) s
      = { s with entries := tabulate 128 fun e => f e (entry e s) } := by
  have hentries : ((indices 128).foldl (fun t e => modEntry e (f e) t) s).entries
      = tabulate 128 fun e => f e (entry e s) := by
    refine getAt_ext fun j => ?_
    refine (entry_foldl_modEntry f j (indices 128) s (List.nodup_finRange 128)).trans ?_
    rw [if_pos (mem_indices j), getAt_tabulate]
  rw [foldl_modEntry_frame, hentries]

/-! ## A notice -/

/-- An entry that matches the notice goes from FRESH to STALE (R24). -/
def staleIfMatching (n : Notice) (x : Entry) : Entry :=
  if noticeMatches n x = true then { x with validity := toStale x.validity } else x

theorem noticeStales_eq (n : Notice) (s : State) (e : EntryId) :
    noticeStales n s e = modEntry e (staleIfMatching n) s := by
  unfold noticeStales
  split
  · next h =>
    simp only [makeStale, modEntry, staleIfMatching, staled_eq_toStale, h, if_true]
  · next h => rw [modEntry_eq_self (by rw [staleIfMatching, if_neg h])]

/-- Each entry has the configuration and the enable state it has in the other state. -/
def SameConfig (s t : State) : Prop := ∀ e, (entry e t).cfg = (entry e s).cfg ∧ (entry e t).enable = (entry e s).enable

theorem SameConfig.trans_frame {s t u : State} (h : SameConfig s t) (k : RefreshFrame t u) : SameConfig s u :=
  fun e => ⟨(k.config e).trans (h e).1, (k.enable e).trans (h e).2⟩

theorem SameConfig.noticeMatches_eq {s t : State} (h : SameConfig s t) (n : Notice) (e : EntryId) :
    noticeMatches n (entry e t) = noticeMatches n (entry e s) := by
  obtain ⟨hcfg, henable⟩ := h e
  rw [noticeMatches, noticeMatches, hcfg, henable]

theorem enabled_of_noticeMatches {n : Notice} {x : Entry} (h : noticeMatches n x = true) : x.enable = .enabled := by
  simp only [noticeMatches, Bool.and_eq_true, beq_iff_eq] at h
  exact h.1.1

/-- The second pass, by what matched before it: each matching ungrouped entry has its refresh arranged (R24). -/
theorem foldl_noticeRefreshes (n : Notice) {s t : State} (h : SameConfig s t) :
    (indices 128).foldl (noticeRefreshes n) t
        = (indices 128).foldl (fun t e =>
            if noticeMatches n (entry e s) = true ∧ (entry e s).cfg.group = 0#4 then demanded e t else t) t
      ∧ SameConfig s ((indices 128).foldl (fun t e =>
            if noticeMatches n (entry e s) = true ∧ (entry e s).cfg.group = 0#4 then demanded e t else t) t) := by
  refine foldl_eq_of_invariant (SameConfig s) (fun u e hu => ?_) (fun u e hu => ?_) _ h
  · unfold noticeRefreshes
    simp only [hu.noticeMatches_eq, (hu e).1, groupId_eq_none_iff, demandRefresh_fst]
  · split
    · next hhit =>
      have henabled : (entry e u).enable = .enabled := (hu e).2.trans (enabled_of_noticeMatches hhit.1)
      rw [← demandRefresh_fst]
      exact hu.trans_frame (demandRefresh_frame henabled)
    · exact hu

/-- The third pass, by what matched before it: each group with a matching member receives one sweep request (R24, R37). -/
theorem foldl_noticeSweeps (n : Notice) {s t : State} (h : SameConfig s t) :
    (indices 15).foldl (noticeSweeps n) t
      = (indices 15).foldl (fun t g =>
          if (indices 128).any (fun e => noticeMatches n (entry e s) && (entry e s).cfg.groupId == some g) = true then
            requestSweep g t
          else t) t := by
  refine (foldl_eq_of_invariant (SameConfig s) (fun u g hu => ?_) (fun u g hu => ?_) _ h).1
  · have hmember : (fun e => noticeMatches n (entry e u) && (entry e u).cfg.groupId == some g)
        = fun e => noticeMatches n (entry e s) && (entry e s).cfg.groupId == some g := by
      funext e
      rw [hu.noticeMatches_eq, (hu e).1]
    unfold noticeSweeps
    rw [hmember]
  · split
    · exact hu.trans_frame (requestSweep_frame g u)
    · exact hu

/-- A notice that matches no ENABLED entry has no effect (R24). -/
theorem takeNotice_of_no_match {n : Notice} {s : State} (h : ∀ e, noticeMatches n (entry e s) = false) :
    takeNotice n s = s := by
  have hstales : ∀ e, noticeStales n s e = s := fun e => by simp [noticeStales, h]
  have hrefreshes : ∀ e, noticeRefreshes n s e = s := fun e => by simp [noticeRefreshes, h]
  have hsweeps : ∀ g, noticeSweeps n s g = s := fun g => by simp [noticeSweeps, h]
  unfold takeNotice
  rw [List.foldl_fixed' hstales, List.foldl_fixed' hrefreshes, List.foldl_fixed' hsweeps]

/-- Settles O29: the passes of the notice one after the other, each by what matched when it was taken. -/
theorem deviceNoticesReachEveryMatch : Obligations.DeviceNoticesReachEveryMatch := by
  intro n rest s hs hnotices
  have hrun : exec .deviceNotice s = .next (takeNotice n { s with notices := rest }) := by
    refine congrArg Host.Outcome.next ((outOfReset_released hs).trans ?_)
    rw [deviceNoticeEvent, hnotices]
  refine ⟨?_, fun hnone => ?_⟩
  · have hstales : (indices 128).foldl (noticeStales n) { s with notices := rest }
        = { s with
            notices := rest
            entries := tabulate 128 fun e => staleIfMatching n (entry e s) } := by
      rw [funext₂ (noticeStales_eq n)]
      exact foldl_modEntry_eq_tabulate (fun _ => staleIfMatching n) { s with notices := rest }
    have hsame : SameConfig s
        { s with notices := rest, entries := tabulate 128 fun e => staleIfMatching n (entry e s) } := by
      intro e
      have hentry : entry e { s with notices := rest, entries := tabulate 128 fun e => staleIfMatching n (entry e s) }
          = staleIfMatching n (entry e s) := getAt_tabulate _ _ _
      rw [hentry, staleIfMatching]
      split <;> exact ⟨rfl, rfl⟩
    obtain ⟨hrefreshes, hsame'⟩ := foldl_noticeRefreshes n hsame
    rw [hrun, takeNotice, hstales, hrefreshes, foldl_noticeSweeps n hsame']
    rfl
  · rw [hrun, takeNotice_of_no_match (s := { s with notices := rest }) hnone]

end Sys2Proof.Proofs
end

section
/-! Stored writes of configuration words (R1, R95, R119, R131, R155, R156, R159): the bits of a word that carry its fields, what a
stored write reads back, and the words of the window it leaves. -/

namespace Sys2Proof.Proofs

open Sys2Proof.Machine Sys2Proof.Safety Sys2Proof.Spec

/-! ## Fields of a word (section 10.7) -/

/-- The bits of a word at which a field of width w stands. -/
def fieldBits (w pos : Nat) : Word := field (BitVec.allOnes w) pos

theorem getLsbD_field {w : Nat} (v : BitVec w) (pos i : Nat) :
    (field v pos).getLsbD i = (decide (i < 32) && decide (pos ≤ i) && v.getLsbD (i - pos)) := by
  rw [field, BitVec.getLsbD_shiftLeft, BitVec.getLsbD_setWidth]
  have hpos : (!decide (i < pos)) = decide (pos ≤ i) := by rw [← decide_not]; simp only [Nat.not_lt]
  rw [hpos]
  by_cases h : i < 32
  · have hsub : i - pos < 32 := by omega
    simp [h, hsub]
  · simp [h]

theorem getLsbD_fieldBits (w pos i : Nat) :
    (fieldBits w pos).getLsbD i = (decide (i < 32) && decide (pos ≤ i) && decide (i - pos < w)) := by
  rw [fieldBits, getLsbD_field, BitVec.getLsbD_allOnes]

/-- A field taken from a written word and put in its place again. -/
theorem field_extractLsb' (data : Word) (pos w : Nat) :
    field (data.extractLsb' pos w) pos = data &&& fieldBits w pos := by
  apply BitVec.eq_of_getLsbD_eq
  intro i hi
  rw [BitVec.getLsbD_and, getLsbD_field, getLsbD_fieldBits, BitVec.getLsbD_extractLsb']
  by_cases h : pos ≤ i
  · simp [hi, h, Bool.and_comm]
  · simp [h]

theorem ofBool_getLsbD (data : Word) (pos : Nat) : BitVec.ofBool (data.getLsbD pos) = data.extractLsb' pos 1 := by
  apply BitVec.eq_of_getLsbD_eq
  intro i hi
  obtain rfl : i = 0 := by omega
  simp

/-- A field stands within its bits. -/
theorem field_and_not_fieldBits {w : Nat} (v : BitVec w) (pos : Nat) : field v pos &&& ~~~ fieldBits w pos = 0#32 := by
  apply BitVec.eq_of_getLsbD_eq
  intro i hi
  rw [BitVec.getLsbD_and, BitVec.getLsbD_not, getLsbD_field, getLsbD_fieldBits]
  by_cases h : i - pos < w
  · simp +contextual [hi, h]
  · simp [BitVec.getLsbD_of_ge v (i - pos) (by omega)]

/-- A word, or part of one, that carries fields in the bits of `m` only: a write of `data` makes `new` of `old`. -/
structure StoredBits (m data old new : Word) : Prop where
  written : new = data &&& m
  within : old &&& ~~~ m = 0#32

namespace StoredBits

theorem field {w : Nat} (data : Word) (pos : Nat) (v : BitVec w) :
    StoredBits (fieldBits w pos) data (Machine.field v pos) (Machine.field (data.extractLsb' pos w) pos) :=
  ⟨field_extractLsb' data pos w, field_and_not_fieldBits v pos⟩

theorem bitField (data : Word) (pos : Nat) (b : Bool) :
    StoredBits (fieldBits 1 pos) data (Machine.bitField b pos) (Machine.bitField (data.getLsbD pos) pos) := by
  unfold Machine.bitField
  rw [ofBool_getLsbD]
  exact .field data pos _

theorem or {m n data old new old' new' : Word} (h : StoredBits m data old new) (k : StoredBits n data old' new') :
    StoredBits (m ||| n) data (old ||| old') (new ||| new') where
  written := by rw [h.written, k.written, ← BitVec.and_or_distrib_left]
  within := by
    rw [BitVec.not_or, BitVec.and_or_distrib_right, ← BitVec.and_assoc old, h.within, BitVec.and_comm (~~~ m),
      ← BitVec.and_assoc old', k.within]
    simp

/-- Such a word reads back in the bits of `m`; its other bits read 0 before and after. -/
theorem readsBack {m data old new : Word} (h : StoredBits m data old new) :
    new = (data &&& m) ||| (old &&& ~~~ m) := by
  rw [h.within, h.written, BitVec.or_zero]

/-- A read-only field of the word beside the bits of `m` is kept. -/
theorem readsBack_beside {m data old new kept : Word} (h : StoredBits m data old new) (hkept : kept &&& m = 0#32) :
    new ||| kept = (data &&& m) ||| ((old ||| kept) &&& ~~~ m) := by
  have hsame : kept &&& ~~~ m = kept := by
    apply BitVec.eq_of_getLsbD_eq
    intro i hi
    have hbit : (kept &&& m).getLsbD i = false := by rw [hkept, BitVec.getLsbD_zero]
    rw [BitVec.getLsbD_and] at hbit
    rw [BitVec.getLsbD_and, BitVec.getLsbD_not]
    cases hk : kept.getLsbD i
    · rfl
    · simpa [hk, hi] using hbit
  have hold : (old ||| kept) &&& ~~~ m = kept := by
    rw [BitVec.and_or_distrib_right, h.within, hsame, BitVec.zero_or]
  rw [hold, h.written]

end StoredBits

/-! ## The configuration words read back -/

theorem storedBits_entryConfig0 (data : Word) (c : EntryConfig) :
    StoredBits 0x03FFFFFF#32 data (readEntryConfig0 c) (readEntryConfig0 (storeEntryConfig0 data c)) := by
  have hbits : fieldBits 3 0 ||| fieldBits 7 3 ||| fieldBits 2 10 ||| fieldBits 2 12 ||| fieldBits 4 14 ||| fieldBits 6 18
      ||| fieldBits 1 24 ||| fieldBits 1 25 = 0x03FFFFFF#32 := by decide
  rw [← hbits]
  exact (((((((StoredBits.field data 0 c.segment).or (.field data 3 c.address)).or (.field data 10 c.offsetWidth)).or
    (.field data 12 c.mode)).or (.field data 14 c.group)).or (.field data 18 c.length)).or
    (.bitField data 24 c.checkCode)).or (.bitField data 25 c.verify)

/-- Two fields side by side. -/
theorem storedBits_two {v w : Nat} (data : Word) (p q : Nat) (x : BitVec v) (y : BitVec w) {m : Word}
    (hbits : fieldBits v p ||| fieldBits w q = m) :
    StoredBits m data (field x p ||| field y q)
      (field (data.extractLsb' p v) p ||| field (data.extractLsb' q w) q) := by
  rw [← hbits]
  exact (StoredBits.field data p x).or (.field data q y)

theorem storedBits_segConfig0 (data : Word) (c : SegConfig) :
    StoredBits 0x00FF0F73#32 data
      (field c.speed 0 ||| field c.retryLimit 4 ||| field c.threshold 8 ||| field c.backoff 16)
      (field (data.extractLsb' 0 2) 0 ||| field (data.extractLsb' 4 3) 4 ||| field (data.extractLsb' 8 4) 8
        ||| field (data.extractLsb' 16 8) 16) := by
  have hbits : fieldBits 2 0 ||| fieldBits 3 4 ||| fieldBits 4 8 ||| fieldBits 8 16 = 0x00FF0F73#32 := by decide
  rw [← hbits]
  exact (((StoredBits.field data 0 c.speed).or (.field data 4 c.retryLimit)).or (.field data 8 c.threshold)).or
    (.field data 16 c.backoff)

theorem storedBits_listenFields (data : Word) (x : ListenEntry) :
    StoredBits 0x00077FFF#32 data (field x.mask 0 ||| field x.address 8 ||| field x.action 16)
      (field (data.extractLsb' 0 8) 0 ||| field (data.extractLsb' 8 7) 8 ||| field (data.extractLsb' 16 3) 16) := by
  have hbits : fieldBits 8 0 ||| fieldBits 7 8 ||| fieldBits 3 16 = 0x00077FFF#32 := by decide
  rw [← hbits]
  exact ((StoredBits.field data 0 x.mask).or (.field data 8 x.address)).or (.field data 16 x.action)

theorem storedBits_slotDesc0 (data : Word) (x : Slot) :
    StoredBits 0x00177F07#32 data
      (field x.segment 0 ||| field x.address 8 ||| field x.kind 16 ||| bitField x.checkOption 20)
      (field (data.extractLsb' 0 3) 0 ||| field (data.extractLsb' 8 7) 8 ||| field (data.extractLsb' 16 3) 16
        ||| bitField (data.getLsbD 20) 20) := by
  have hbits : fieldBits 3 0 ||| fieldBits 7 8 ||| fieldBits 3 16 ||| fieldBits 1 20 = 0x00177F07#32 := by decide
  rw [← hbits]
  exact (((StoredBits.field data 0 x.segment).or (.field data 8 x.address)).or (.field data 16 x.kind)).or
    (.bitField data 20 x.checkOption)

theorem storedBits_one {w : Nat} (data : Word) (x : BitVec w) {m : Word} (hbits : fieldBits w 0 = m) :
    StoredBits m data (field x 0) (field (data.extractLsb' 0 w) 0) := by
  rw [← hbits]
  exact .field data 0 x

/-! ## Which words read a record -/

/-- The configuration of an entry that is DISABLED is read in its three configuration words and nowhere else: it is no member of
any group (R32). -/
theorem readLoc_modEntry_cfg {e : EntryId} (f : EntryConfig → EntryConfig) {s : State} {l : Loc}
    (he : (entry e s).enable = .disabled) (h0 : l ≠ .entryConfig0 e) (h1 : l ≠ .entryConfig1 e) (h2 : l ≠ .entrySettle e) :
    readLoc l (modEntry e (fun x => { x with cfg := f x.cfg }) s) = readLoc l s := by
  set t := modEntry e (fun x => { x with cfg := f x.cfg }) s with ht
  have hentry : ∀ j, entry j t = { entry j s with cfg := (entry j t).cfg } := by
    intro j
    rw [ht, entry_modEntry]
    split <;> rfl
  have hmember : ∀ g j, isMember g (entry j t) = isMember g (entry j s) := by
    intro g j
    by_cases hj : j = e
    · subst hj
      rw [ht, entry_modEntry_same]
      simp [isMember, he]
    · rw [ht, entry_modEntry_ne _ _ _ hj]
  cases l with
  | global w =>
    cases w with
    | detail0 =>
      show (entry s.detailSelect t).publishTime = (entry s.detailSelect s).publishTime
      rw [hentry]
    | detail1 =>
      show field (entry s.detailSelect t).missed 0 ||| field (entry s.detailSelect t).lastRefresh.code 8
        ||| field (entry s.detailSelect t).lastWrite.code 12 = _
      rw [hentry]
      rfl
    | _ => rfl
  | faultBitmap k =>
    have hmark : ∀ j, (entry j t).faultMark = (entry j s).faultMark := fun j => by rw [hentry]
    simp only [readLoc, faultBitmapWord, hmark]
  | groupCounts g =>
    have hcount : memberCount g t = memberCount g s := by simp only [memberCount, hmember]
    simp only [readLoc, hcount]
    rfl
  | entryConfig0 j =>
    have hj : j ≠ e := fun h => h0 (by rw [h])
    simp only [readLoc, ht, entry_modEntry_ne _ _ _ hj]
  | entryConfig1 j =>
    have hj : j ≠ e := fun h => h1 (by rw [h])
    simp only [readLoc, ht, entry_modEntry_ne _ _ _ hj]
  | entrySettle j =>
    have hj : j ≠ e := fun h => h2 (by rw [h])
    simp only [readLoc, ht, entry_modEntry_ne _ _ _ hj]
  | entryStatus j =>
    simp only [readLoc]
    rw [hentry]
    rfl
  | published j w =>
    simp only [readLoc]
    rw [hentry]
  | staging j w =>
    simp only [readLoc]
    rw [hentry]
  | _ => rfl

/-- The configuration of a segment is read in its two configuration words and nowhere else. -/
theorem readLoc_modCtl_cfg {q : SegId} (f : SegConfig → SegConfig) {s : State} {l : Loc}
    (h0 : l ≠ .segConfig0 q) (h1 : l ≠ .segConfig1 q) :
    readLoc l (modCtl q (fun c => { c with cfg := f c.cfg }) s) = readLoc l s := by
  cases l with
  | segConfig0 p =>
    have hp : p ≠ q := fun h => h0 (by rw [h])
    simp only [readLoc, ctl_modCtl_ne _ _ _ hp]
  | segConfig1 p =>
    have hp : p ≠ q := fun h => h1 (by rw [h])
    simp only [readLoc, ctl_modCtl_ne _ _ _ hp]
  | segStatus p =>
    by_cases hp : p = q
    · subst hp
      simp only [readLoc, ctl_modCtl_same]
    · simp only [readLoc, ctl_modCtl_ne _ _ _ hp]
  | _ => rfl

/-- The fields of a listen entry are read in one word and nowhere else; a change of them that keeps it disabled or enabled. -/
theorem readLoc_modListen {i : ListenId} {f : ListenEntry → ListenEntry} {s : State} {l : Loc}
    (hf : (f (listenEntry i s)).enabled = (listenEntry i s).enabled) (h0 : l ≠ .listenFields i) :
    readLoc l (modListen i f s) = readLoc l s := by
  cases l with
  | listenFields j =>
    have hj : j ≠ i := fun h => h0 (by rw [h])
    simp only [readLoc, listenEntry_modListen_ne _ _ _ hj]
  | listenEnable j =>
    by_cases hj : j = i
    · subst hj
      simp only [readLoc, listenEntry_modListen_same, hf]
    · simp only [readLoc, listenEntry_modListen_ne _ _ _ hj]
  | _ => rfl

/-- What a write of a descriptor word keeps of a slot: its data area and everything its status word and the summary show. -/
structure SameSlotStatus (x y : Slot) : Prop where
  data : y.data = x.data
  state : y.state = x.state
  status : readSlotStatus y = readSlotStatus x

/-- The descriptor of a slot is read in its two descriptor words and nowhere else. -/
theorem readLoc_modSlot {k : SlotId} {f : Slot → Slot} {s : State} {l : Loc} (hf : ∀ x, SameSlotStatus x (f x))
    (h0 : l ≠ .slotDesc0 k) (h1 : l ≠ .slotDesc1 k) : readLoc l (modSlot k f s) = readLoc l s := by
  have hslot : ∀ j, SameSlotStatus (slot j s) (slot j (modSlot k f s)) := by
    intro j
    by_cases hj : j = k
    · subst hj
      rw [slot_modSlot_same]
      exact hf _
    · rw [slot_modSlot_ne _ _ _ hj]
      exact ⟨rfl, rfl, rfl⟩
  cases l with
  | global w =>
    cases w with
    | slotDone => simp only [readLoc, readGlobal, slotDoneSummary, (hslot _).state]
    | _ => rfl
  | slotDesc0 j =>
    have hj : j ≠ k := fun h => h0 (by rw [h])
    simp only [readLoc, slot_modSlot_ne _ _ _ hj]
  | slotDesc1 j =>
    have hj : j ≠ k := fun h => h1 (by rw [h])
    simp only [readLoc, slot_modSlot_ne _ _ _ hj]
  | slotStatus j => exact (hslot j).status
  | slotData j w => simp only [readLoc, (hslot j).data]
  | _ => rfl

/-- The detail select is read in its word, and through the two detail words of the entry it selects (R159). -/
theorem readLoc_detailSelect (e : EntryId) {s : State} {l : Loc} (h : l ≠ .global .detailSelect)
    (h0 : l ≠ .global .detail0) (h1 : l ≠ .global .detail1) : readLoc l { s with detailSelect := e } = readLoc l s := by
  cases l with
  | global w =>
    cases w with
    | detailSelect => exact absurd rfl h
    | detail0 => exact absurd rfl h0
    | detail1 => exact absurd rfl h1
    | _ => rfl
  | _ => rfl

end Sys2Proof.Proofs
end

section
/-! A stored write of each configuration word, and the access that stores it (R155, R156, R157; Table 10.1). -/

namespace Sys2Proof.Proofs

open Sys2Proof.Machine Sys2Proof.Safety Sys2Proof.Spec

/-! ## The access -/

/-- The row LOCKED of Table 10.1. -/
theorem locked_iff (l : Loc) (s : State) : locked l s = true ↔ Locked l s := by
  cases l <;> simp [locked, Locked]

/-- A full write of a configuration word that is not locked is no access error (Table 10.1). -/
theorem writeError_eq_none {l : Loc} {m : Word} {s : State} (hr : s.resetting = false) (hw : writableBits l = some m)
    (hl : ¬ Locked l s) : writeError (some l) 0xF#4 s = none := by
  have hkind : l.kind = .fullWord := by
    unfold writableBits at hw
    split at hw
    case h_10 => cases hw
    all_goals rfl
  have hmode : readModeStaging l s = false := by
    unfold readModeStaging
    split
    · cases hkind
    · rfl
  rw [← locked_iff] at hl
  simp [writeError, hkind, hmode, hl, hr]

/-- Such a write is stored (R155). -/
theorem exec_hostWrite_stored {a : Addr} {l : Loc} {m : Word} (data : Word) {s : State} (hs : Ready s)
    (ha : locate a = some l) (hw : writableBits l = some m) (hl : ¬ Locked l s) :
    exec (.hostWrite a 0xF#4 data) s = .next (storeLoc l 0xF#4 data s) := by
  refine congrArg Host.Outcome.next ?_
  unfold hostWrite writeWord
  simp only [ha, hs.1, writeError_eq_none hs.2 hw hl, Bool.false_eq_true, if_false]

/-! ## What a stored write does -/

/-- The state after a write of `data` to a configuration word with the writable bits `m`: the word reads back, the others read as
before, and of the part only configuration has changed. -/
structure ConfigurationStored (l : Loc) (m data : Word) (s t : State) : Prop where
  readsBack : readLoc l t = (data &&& m) ||| (readLoc l s &&& ~~~ m)
  others : ∀ l', l' ≠ l → (l = .global .detailSelect → l' ≠ .global .detail0 ∧ l' ≠ .global .detail1) →
    readLoc l' t = readLoc l' s
  frame : t = { s with
    entries := t.entries, ctls := t.ctls, slots := t.slots, listen := t.listen, detailSelect := t.detailSelect }
  entries : ∀ e, entry e t = { entry e s with cfg := (entry e t).cfg }
  ctls : ∀ q, ctl q t = { ctl q s with cfg := (ctl q t).cfg }
  slots : ∀ k, (slot k t).data = (slot k s).data ∧ readLoc (.slotStatus k) t = readLoc (.slotStatus k) s

namespace ConfigurationStored

/-- A write that changes an entry's configuration, from what it does to the three words that read it. -/
theorem of_entry {e : EntryId} {f : EntryConfig → EntryConfig} {l : Loc} {m data : Word} {s : State}
    (he : (entry e s).enable = .disabled)
    (hback : readLoc l (modEntry e (fun x => { x with cfg := f x.cfg }) s) = (data &&& m) ||| (readLoc l s &&& ~~~ m))
    (h0 : l = .entryConfig0 e
      ∨ readLoc (.entryConfig0 e) (modEntry e (fun x => { x with cfg := f x.cfg }) s) = readLoc (.entryConfig0 e) s)
    (h1 : l = .entryConfig1 e
      ∨ readLoc (.entryConfig1 e) (modEntry e (fun x => { x with cfg := f x.cfg }) s) = readLoc (.entryConfig1 e) s)
    (h2 : l = .entrySettle e
      ∨ readLoc (.entrySettle e) (modEntry e (fun x => { x with cfg := f x.cfg }) s) = readLoc (.entrySettle e) s) :
    ConfigurationStored l m data s (modEntry e (fun x => { x with cfg := f x.cfg }) s) where
  readsBack := hback
  others l' hl _ := by
    by_cases k0 : l' = .entryConfig0 e
    · subst k0
      exact h0.resolve_left fun h => hl h.symm
    by_cases k1 : l' = .entryConfig1 e
    · subst k1
      exact h1.resolve_left fun h => hl h.symm
    by_cases k2 : l' = .entrySettle e
    · subst k2
      exact h2.resolve_left fun h => hl h.symm
    exact readLoc_modEntry_cfg f he k0 k1 k2
  frame := rfl
  entries j := by
    rw [entry_modEntry]
    split <;> rfl
  ctls _ := rfl
  slots _ := ⟨rfl, rfl⟩

/-- A write that changes a segment's configuration, from what it does to the two words that read it. -/
theorem of_segment {q : SegId} {f : SegConfig → SegConfig} {l : Loc} {m data : Word} {s : State}
    (hback : readLoc l (modCtl q (fun c => { c with cfg := f c.cfg }) s) = (data &&& m) ||| (readLoc l s &&& ~~~ m))
    (h0 : l = .segConfig0 q
      ∨ readLoc (.segConfig0 q) (modCtl q (fun c => { c with cfg := f c.cfg }) s) = readLoc (.segConfig0 q) s)
    (h1 : l = .segConfig1 q
      ∨ readLoc (.segConfig1 q) (modCtl q (fun c => { c with cfg := f c.cfg }) s) = readLoc (.segConfig1 q) s) :
    ConfigurationStored l m data s (modCtl q (fun c => { c with cfg := f c.cfg }) s) where
  readsBack := hback
  others l' hl _ := by
    by_cases k0 : l' = .segConfig0 q
    · subst k0
      exact h0.resolve_left fun h => hl h.symm
    by_cases k1 : l' = .segConfig1 q
    · subst k1
      exact h1.resolve_left fun h => hl h.symm
    exact readLoc_modCtl_cfg f k0 k1
  frame := rfl
  entries _ := rfl
  ctls p := by
    by_cases hp : p = q
    · subst hp
      rw [ctl_modCtl_same]
    · rw [ctl_modCtl_ne _ _ _ hp]
  slots _ := ⟨rfl, rfl⟩

/-- A write that changes a slot's descriptor, from what it does to the two words that read it. -/
theorem of_slot {k : SlotId} {f : Slot → Slot} {l : Loc} {m data : Word} {s : State} (hf : ∀ x, SameSlotStatus x (f x))
    (hback : readLoc l (modSlot k f s) = (data &&& m) ||| (readLoc l s &&& ~~~ m))
    (h0 : l = .slotDesc0 k ∨ readLoc (.slotDesc0 k) (modSlot k f s) = readLoc (.slotDesc0 k) s)
    (h1 : l = .slotDesc1 k ∨ readLoc (.slotDesc1 k) (modSlot k f s) = readLoc (.slotDesc1 k) s) :
    ConfigurationStored l m data s (modSlot k f s) where
  readsBack := hback
  others l' hl _ := by
    by_cases k0 : l' = .slotDesc0 k
    · subst k0
      exact h0.resolve_left fun h => hl h.symm
    by_cases k1 : l' = .slotDesc1 k
    · subst k1
      exact h1.resolve_left fun h => hl h.symm
    exact readLoc_modSlot hf k0 k1
  frame := rfl
  entries _ := rfl
  ctls _ := rfl
  slots j := by
    refine ⟨?_, readLoc_modSlot hf (fun h => nomatch h) (fun h => nomatch h)⟩
    by_cases hj : j = k
    · subst hj
      rw [slot_modSlot_same]
      exact (hf _).data
    · rw [slot_modSlot_ne _ _ _ hj]

end ConfigurationStored

/-! ## The nine words -/

theorem entryConfig0_stored {e : EntryId} (data : Word) {s : State} (he : (entry e s).enable = .disabled) :
    ConfigurationStored (.entryConfig0 e) 0x03FFFFFF#32 data s (storeLoc (.entryConfig0 e) 0xF#4 data s) := by
  refine .of_entry (f := storeEntryConfig0 data) he ?_ (.inl rfl) (.inr ?_) (.inr ?_)
  · simp only [readLoc, entry_modEntry_same]
    exact (storedBits_entryConfig0 data _).readsBack
  · simp only [readLoc, entry_modEntry_same, storeEntryConfig0]
  · simp only [readLoc, entry_modEntry_same, storeEntryConfig0]

theorem entryConfig1_stored {e : EntryId} (data : Word) {s : State} (he : (entry e s).enable = .disabled) :
    ConfigurationStored (.entryConfig1 e) 0xFFFFFFFF#32 data s (storeLoc (.entryConfig1 e) 0xF#4 data s) := by
  refine .of_entry (f := storeEntryConfig1 data) he ?_ (.inr ?_) (.inl rfl) (.inr ?_)
  · simp only [readLoc, entry_modEntry_same]
    exact (storedBits_two data 0 16 _ _ (by decide)).readsBack
  · simp only [readLoc, entry_modEntry_same, storeEntryConfig1, readEntryConfig0]
  · simp only [readLoc, entry_modEntry_same, storeEntryConfig1]

/-- The settle word shows the sweep number beside the settle delay, and a write leaves it (Table 10.4). -/
theorem entrySettle_stored {e : EntryId} (data : Word) {s : State} (he : (entry e s).enable = .disabled) :
    ConfigurationStored (.entrySettle e) 0x000000FF#32 data s (storeLoc (.entrySettle e) 0xF#4 data s) := by
  refine .of_entry (f := fun c => { c with settleDelay := data.extractLsb' 0 8 }) he ?_ (.inr ?_) (.inr ?_) (.inl rfl)
  · have hkept : field (entry e s).sweepNumber 16 &&& 0x000000FF#32 = 0#32 := by
      have hbits : 0x000000FF#32 = ~~~ fieldBits 16 16 &&& 0x000000FF#32 := by decide
      rw [hbits, ← BitVec.and_assoc, field_and_not_fieldBits, BitVec.zero_and]
    simp only [readLoc, entry_modEntry_same]
    exact (storedBits_one data (entry e s).cfg.settleDelay (by decide)).readsBack_beside hkept
  · simp only [readLoc, entry_modEntry_same, readEntryConfig0]
  · simp only [readLoc, entry_modEntry_same]

theorem segConfig0_stored (q : SegId) (data : Word) (s : State) :
    ConfigurationStored (.segConfig0 q) 0x00FF0F73#32 data s (storeLoc (.segConfig0 q) 0xF#4 data s) := by
  refine .of_segment (f := storeSegConfig0 data) ?_ (.inl rfl) (.inr ?_)
  · simp only [readLoc, ctl_modCtl_same]
    exact (storedBits_segConfig0 data _).readsBack
  · simp only [readLoc, ctl_modCtl_same, storeSegConfig0]

theorem segConfig1_stored (q : SegId) (data : Word) (s : State) :
    ConfigurationStored (.segConfig1 q) 0x0000FFFF#32 data s (storeLoc (.segConfig1 q) 0xF#4 data s) := by
  refine .of_segment (f := storeSegConfig1 data) ?_ (.inr ?_) (.inl rfl)
  · simp only [readLoc, ctl_modCtl_same]
    exact (storedBits_two data 0 8 _ _ (by decide)).readsBack
  · simp only [readLoc, ctl_modCtl_same, storeSegConfig1]

theorem listenFields_stored (i : ListenId) (data : Word) (s : State) :
    ConfigurationStored (.listenFields i) 0x00077FFF#32 data s (storeLoc (.listenFields i) 0xF#4 data s) where
  readsBack := by
    simp only [storeLoc, readLoc, listenEntry_modListen_same]
    exact (storedBits_listenFields data _).readsBack
  others _ hl _ := readLoc_modListen rfl hl
  frame := rfl
  entries _ := rfl
  ctls _ := rfl
  slots _ := ⟨rfl, rfl⟩

theorem slotDesc0_stored (k : SlotId) (data : Word) (s : State) :
    ConfigurationStored (.slotDesc0 k) 0x00177F07#32 data s (storeLoc (.slotDesc0 k) 0xF#4 data s) := by
  refine .of_slot (f := storeSlotDesc0 data) (fun _ => ⟨rfl, rfl, rfl⟩) ?_ (.inl rfl) (.inr ?_)
  · simp only [readLoc, slot_modSlot_same]
    exact (storedBits_slotDesc0 data _).readsBack
  · simp only [readLoc, slot_modSlot_same, storeSlotDesc0]

theorem slotDesc1_stored (k : SlotId) (data : Word) (s : State) :
    ConfigurationStored (.slotDesc1 k) 0x00003F3F#32 data s (storeLoc (.slotDesc1 k) 0xF#4 data s) := by
  refine .of_slot (f := storeSlotDesc1 data) (fun _ => ⟨rfl, rfl, rfl⟩) ?_ (.inr ?_) (.inl rfl)
  · simp only [readLoc, slot_modSlot_same]
    exact (storedBits_two data 0 8 _ _ (by decide)).readsBack
  · simp only [readLoc, slot_modSlot_same, storeSlotDesc1]

theorem detailSelect_stored (data : Word) (s : State) :
    ConfigurationStored (.global .detailSelect) 0x0000007F#32 data s
      (storeLoc (.global .detailSelect) 0xF#4 data s) where
  readsBack := by
    have hselect : BitVec.ofNat 7 (data.extractLsb' 0 7).toNat = data.extractLsb' 0 7 := by
      rw [BitVec.ofNat_toNat, BitVec.setWidth_eq]
    simp only [storeLoc, storeGlobal, readLoc, readGlobal, hselect]
    exact (storedBits_one data (BitVec.ofNat 7 s.detailSelect.val) (by decide)).readsBack
  others l' hl hdetail := by
    obtain ⟨h0, h1⟩ := hdetail rfl
    exact readLoc_detailSelect _ hl h0 h1
  frame := rfl
  entries _ := rfl
  ctls _ := rfl
  slots _ := ⟨rfl, rfl⟩

/-- Every configuration word that is not locked. -/
theorem storeLoc_configurationStored {l : Loc} {m : Word} (data : Word) {s : State} (hw : writableBits l = some m)
    (hl : ¬ Locked l s) : ConfigurationStored l m data s (storeLoc l 0xF#4 data s) := by
  have hentry : ∀ e, l = .entryConfig0 e ∨ l = .entryConfig1 e ∨ l = .entrySettle e → (entry e s).enable = .disabled :=
    fun e he => by_contra fun h => hl (.inl ⟨e, he, h⟩)
  unfold writableBits at hw
  split at hw
  case h_1 e => cases hw; exact entryConfig0_stored data (hentry e (.inl rfl))
  case h_2 e => cases hw; exact entryConfig1_stored data (hentry e (.inr (.inl rfl)))
  case h_3 e => cases hw; exact entrySettle_stored data (hentry e (.inr (.inr rfl)))
  case h_4 q => cases hw; exact segConfig0_stored q data s
  case h_5 q => cases hw; exact segConfig1_stored q data s
  case h_6 i => cases hw; exact listenFields_stored i data s
  case h_7 k => cases hw; exact slotDesc0_stored k data s
  case h_8 k => cases hw; exact slotDesc1_stored k data s
  case h_9 => cases hw; exact detailSelect_stored data s
  case h_10 => cases hw

/-- Settles O6: the access stores the word, and the store is that of its record. -/
theorem configurationWritesReadBack : Obligations.ConfigurationWritesReadBack := by
  intro a l m data s hs ha hw hl
  have hstored := storeLoc_configurationStored data hw hl
  exact ⟨_, exec_hostWrite_stored data hs ha hw hl, hstored.readsBack, hstored.others, hstored.frame, hstored.entries,
    hstored.ctls, hstored.slots⟩

end Sys2Proof.Proofs
end

section
/-! Sweeps of a group (R38, R42 to R44). Each end is one change of every HELD member; a start asks the members one after the
other, so what it has done stands as an invariant over the members asked so far. -/

namespace Sys2Proof.Proofs

open Sys2Proof.Machine Sys2Proof.Safety Sys2Proof.Spec

/-! ## Sweep ends (R42, R43) -/

/-- A member that is HELD is released at a torn end (R43). -/
def releasedIfHeld (g : GroupId) (x : Entry) : Entry :=
  if (isMember g x && x.refresh == .held) = true then released x else x

/-- A member that is HELD is published and released at a group publish (R42 step 2). -/
def publishedIfHeld (g : GroupId) (number : Half) (now : Word) (x : Entry) : Entry :=
  if (isMember g x && x.refresh == .held) = true then
    released { publishedEntry x.held.toList now x with sweepNumber := number }
  else x

theorem isHeldMember_iff (g : GroupId) (x : Entry) :
    (isMember g x = true ∧ x.refresh = .held) ↔ (isMember g x && x.refresh == .held) = true := by
  rw [Bool.and_eq_true, beq_iff_eq]

theorem discardHeld_eq (g : GroupId) (s : State) (e : EntryId) : discardHeld g s e = modEntry e (releasedIfHeld g) s := by
  unfold discardHeld
  simp only [isHeldMember_iff]
  split
  · next h => simp only [modEntry, releasedIfHeld, h, if_true, fill_nil, released]
  · next h => rw [modEntry_eq_self (by rw [releasedIfHeld, if_neg h])]

theorem publishHeld_eq (g : GroupId) (number : Half) (s : State) (e : EntryId) :
    publishHeld g number s e = modEntry e (publishedIfHeld g number s.timebase) s := by
  unfold publishHeld
  simp only [isHeldMember_iff]
  split
  · next h =>
    rw [publish, modEntry_modEntry]
    simp only [modEntry, publishedIfHeld, publishedEntry, h, if_true, fill_nil, released]
  · next h => rw [modEntry_eq_self (by rw [publishedIfHeld, if_neg h])]

/-- The torn end in the words of R43. -/
theorem tornEnd_eq_tornEnded (g : GroupId) (s : State) : tornEnd g s = tornEnded g s := by
  unfold tornEnd
  rw [funext₂ (discardHeld_eq g), foldl_modEntry_eq_tabulate fun _ => releasedIfHeld g]
  rfl

/-- The pass over the members of a group publish: no member's publish moves the timebase. -/
theorem foldl_publishHeld (g : GroupId) (number : Half) (s : State) :
    (indices 128).foldl (publishHeld g number) s
      = { s with entries := tabulate 128 fun e => publishedIfHeld g number s.timebase (entry e s) } := by
  obtain ⟨hpass, -⟩ := foldl_eq_of_invariant (f := publishHeld g number)
    (g := fun t e => modEntry e (publishedIfHeld g number s.timebase) t) (fun t => t.timebase = s.timebase)
    (fun t e ht => by rw [publishHeld_eq, ht]) (fun _ _ ht => ht) (indices 128) rfl
  rw [hpass, foldl_modEntry_eq_tabulate fun _ => publishedIfHeld g number s.timebase]

/-- The group publish in the words of R42. -/
theorem groupPublish_eq_groupPublished (g : GroupId) (s : State) : groupPublish g s = groupPublished g s := by
  unfold groupPublish
  dsimp only
  rw [foldl_publishHeld]
  rfl

theorem sweepAgain_tornEnded (g : GroupId) (s : State) :
    (group g (tornEnded g s)).sweepAgain = (group g s).sweepAgain := by
  simp [tornEnded, group]

theorem state_tornEnded (g : GroupId) (s : State) : (group g (tornEnded g s)).state = .idle := by
  simp [tornEnded, group]

theorem sweepAgain_groupPublished (g : GroupId) (s : State) :
    (group g (groupPublished g s)).sweepAgain = (group g s).sweepAgain := by
  simp [groupPublished, group]

/-! ## One member asked (R38 step 2) -/

/-- How a group counts an answer. -/
def counted (a : Admission) (x : Group) : Group :=
  match a with
  | .admitted => { x with outstanding := x.outstanding + 1 }
  | .full | .down => { x with torn := true }

/-- The flags a member requests with its answer: QUEUE_PRESSURE, and ENTRY_FAULT where it was not fault-marked. -/
def answerFlags (cls : JobClass) (a : Admission) (x : Entry) : BitVec 13 :=
  match a with
  | .admitted => 0#13
  | .full => if cls = .routine then 0x100#13 else 0#13
  | .down => if x.faultMark = true then 0#13 else 0x001#13

/-- A member has taken its answer, and its group has counted it. -/
def answerTaken (g : GroupId) (cls : JobClass) (a : Admission) (e : EntryId) (s : State) : State :=
  let s1 := if a = .admitted then joined (entry e s).cfg.seg (refreshJob e cls (some g)) s else s
  { s1 with
    entries := putAt s.entries e (askedEntry cls a (entry e s)), groups := putAt s.groups g (counted a (group g s))
    flags := s.flags ||| answerFlags cls a (entry e s) }

theorem isAsked_iff (g : GroupId) (s : State) (e : EntryId) :
    isAsked g s e = true ↔ isMember g (entry e s) = true ∧ (entry e s).enable = .enabled := by
  unfold isAsked isMember
  cases (entry e s).enable <;> simp

theorem requestRefresh_snd (e : EntryId) (cls : JobClass) (tag : Option GroupId) (s : State) :
    (requestRefresh e cls tag s).2 = answerOf (entry e s).cfg.seg cls s := by
  unfold requestRefresh
  rw [requestAdmission_eq]
  dsimp only
  cases answerOf (entry e s).cfg.seg cls s <;> rfl

/-- What a member's request is with each answer: a member's REFRESH job meets no write (R50). -/
theorem modGroup_requested_eq_answerTaken {g : GroupId} {e : EntryId} {s : State} (cls : JobClass)
    (hg : (entry e s).cfg.groupId = some g) :
    modGroup g (counted (answerOf (entry e s).cfg.seg cls s)) (requested e cls (some g) s)
      = answerTaken g cls (answerOf (entry e s).cfg.seg cls s) e s := by
  have hmeets : meetsWrite (entry e s) = false := by
    rw [← overtakenAtAdmission_eq, overtakenAtAdmission, hg]
    rfl
  unfold requested answerTaken
  cases answerOf (entry e s).cfg.seg cls s with
  | admitted =>
    have hentry : entry e (joined (entry e s).cfg.seg (refreshJob e cls (some g)) s) = entry e s := rfl
    simp only [modEntry, hentry, hmeets, Bool.or_false, if_true]
    simp [modGroup, group, joined, counted, askedEntry, answerFlags]
  | full => cases cls <;> simp [modGroup, modEntry, group, counted, askedEntry, answerFlags]
  | down =>
    simp only [marked, entry_modEntry_same]
    by_cases hmark : (entry e s).faultMark = true <;>
      simp [modGroup, modEntry, group, counted, askedEntry, answerFlags, hmark]

/-- A member asked at a sweep start: it takes the answer its queue gives (R30, R38). -/
theorem askMember_eq (g : GroupId) (cls : JobClass) (s : State) (e : EntryId) :
    askMember g cls s e
      = if isAsked g s e = true then answerTaken g cls (answerOf (entry e s).cfg.seg cls s) e s else s := by
  unfold askMember
  simp only [← isAsked_iff]
  split
  · next h =>
    obtain ⟨-, hg⟩ : (entry e s).enable = .enabled ∧ (entry e s).cfg.groupId = some g := by simpa [isAsked] using h
    rw [← modGroup_requested_eq_answerTaken cls hg, ← requestRefresh_fst, ← requestRefresh_snd e cls (some g)]
    rcases requestRefresh e cls (some g) s with ⟨t, _ | _ | _⟩ <;> rfl
  · rfl

/-! ### What a member's answer changes -/

theorem queue_joined (q p : SegId) (j : Job) (s : State) :
    queue p (joined q j s) = if p = q then withTail j.cls [j] (queue q s) else queue p s := by
  split
  · next h => subst h; exact getAt_putAt_same _ _ _
  · next h => exact getAt_putAt_ne _ _ h

theorem ctl_joined (q p : SegId) (j : Job) (s : State) :
    ctl p (joined q j s)
      = if p = q ∧ beginsWait q s = true then { ctl p s with busySince := some s.timebase } else ctl p s := by
  by_cases hb : beginsWait q s = true
  · by_cases hp : p = q
    · subst hp
      simp [joined, ctl, hb]
    · simp [joined, ctl, hb, hp, getAt_putAt_ne]
  · simp [joined, ctl, hb]

theorem entry_answerTaken (g : GroupId) (cls : JobClass) (a : Admission) (e d : EntryId) (s : State) :
    entry d (answerTaken g cls a e s) = if d = e then askedEntry cls a (entry d s) else entry d s := by
  split
  · next h => subst h; exact getAt_putAt_same _ _ _
  · next h => exact getAt_putAt_ne _ _ h

theorem queue_answerTaken (g : GroupId) (cls : JobClass) (a : Admission) (e : EntryId) (q : SegId) (s : State) :
    queue q (answerTaken g cls a e s)
      = if a = .admitted ∧ q = (entry e s).cfg.seg then withTail cls [refreshJob e cls (some g)] (queue q s)
        else queue q s := by
  cases a with
  | admitted =>
    refine (queue_joined (entry e s).cfg.seg q (refreshJob e cls (some g)) s).trans ?_
    by_cases hq : q = (entry e s).cfg.seg <;> simp [hq, refreshJob]
  | full | down => rfl

theorem ctl_answerTaken (g : GroupId) (cls : JobClass) (a : Admission) (e : EntryId) (q : SegId) (s : State) :
    ctl q (answerTaken g cls a e s)
      = if a = .admitted ∧ q = (entry e s).cfg.seg ∧ beginsWait q s = true then
          { ctl q s with busySince := some s.timebase }
        else ctl q s := by
  cases a with
  | admitted =>
    refine (ctl_joined (entry e s).cfg.seg q (refreshJob e cls (some g)) s).trans ?_
    by_cases hq : q = (entry e s).cfg.seg <;> simp [hq]
  | full | down => rfl

theorem flags_answerTaken (g : GroupId) (cls : JobClass) (a : Admission) (e : EntryId) (s : State) :
    (answerTaken g cls a e s).flags = s.flags ||| answerFlags cls a (entry e s) := rfl

theorem groups_answerTaken (g : GroupId) (cls : JobClass) (a : Admission) (e : EntryId) (s : State) :
    (answerTaken g cls a e s).groups = putAt s.groups g (counted a (group g s)) := rfl

/-- The parts of the state that a sweep start changes. -/
def SweepFrame (s t : State) : Prop :=
  t = { s with entries := t.entries, queues := t.queues, ctls := t.ctls, groups := t.groups, flags := t.flags }

theorem SweepFrame.trans {s t u : State} (h : SweepFrame s t) (k : SweepFrame t u) : SweepFrame s u := by
  refine Eq.trans k ?_
  rw [show t = _ from h]

theorem answerTaken_frame (g : GroupId) (cls : JobClass) (a : Admission) (e : EntryId) (s : State) :
    SweepFrame s (answerTaken g cls a e s) := by
  cases a <;> rfl

/-! ## The members asked so far -/

/-- Those listed that a sweep start at `s` asks with this answer. -/
def answeredIn (g : GroupId) (cls : JobClass) (a : Admission) (s : State) (l : List EntryId) : List EntryId :=
  l.filter fun e => isAsked g s e && sweepAnswer g cls s e == a

/-- Those listed whose job joins the queue of the segment. -/
def joinedOn (g : GroupId) (cls : JobClass) (q : SegId) (s : State) (l : List EntryId) : List EntryId :=
  (answeredIn g cls .admitted s l).filter fun e => (entry e s).cfg.seg == q

/-- How many of those listed are asked with their job on the segment. -/
def askedOn (g : GroupId) (q : SegId) (s : State) (l : List EntryId) : Nat :=
  (l.filter fun d => isAsked g s d && (entry d s).cfg.seg == q).length

/-- The group once those listed have been asked. -/
def askingGroup (g : GroupId) (cls : JobClass) (s : State) (l : List EntryId) : Group :=
  { group g s with
    state := .sweeping, torn := !((answeredIn g cls .full s l).isEmpty && (answeredIn g cls .down s l).isEmpty)
    outstanding := (answeredIn g cls .admitted s l).length }

/-- The event flags once those listed have been asked. -/
def askingFlags (g : GroupId) (cls : JobClass) (s : State) (l : List EntryId) : BitVec 13 :=
  s.flags ||| (if cls = .routine ∧ answeredIn g cls .full s l ≠ [] then 0x100#13 else 0#13)
    ||| if (answeredIn g cls .down s l).any (fun e => !(entry e s).faultMark) = true then 0x001#13 else 0#13

/-- `t` is the state in which a sweep start at `s` has asked those listed. -/
structure AskedThese (g : GroupId) (cls : JobClass) (l : List EntryId) (s t : State) : Prop where
  entries : ∀ d, entry d t
    = if d ∈ l ∧ isAsked g s d = true then askedEntry cls (sweepAnswer g cls s d) (entry d s) else entry d s
  queues : ∀ q, queue q t = withTail cls ((joinedOn g cls q s l).map fun e => refreshJob e cls (some g)) (queue q s)
  ctls : ∀ q, ctl q t
    = if beginsWait q s = true ∧ joinedOn g cls q s l ≠ [] then { ctl q s with busySince := some s.timebase } else ctl q s
  groups : t.groups = putAt s.groups g (askingGroup g cls s l)
  flags : t.flags = askingFlags g cls s l
  frame : SweepFrame s t

theorem answeredIn_append (g : GroupId) (cls : JobClass) (a : Admission) (s : State) (l : List EntryId) (e : EntryId) :
    answeredIn g cls a s (l ++ [e])
      = answeredIn g cls a s l ++ if isAsked g s e = true ∧ sweepAnswer g cls s e = a then [e] else [] := by
  simp [answeredIn, List.filter_append, List.filter_singleton]

theorem joinedOn_append (g : GroupId) (cls : JobClass) (q : SegId) (s : State) (l : List EntryId) (e : EntryId) :
    joinedOn g cls q s (l ++ [e])
      = joinedOn g cls q s l
        ++ if isAsked g s e = true ∧ sweepAnswer g cls s e = .admitted ∧ (entry e s).cfg.seg = q then [e] else [] := by
  unfold joinedOn
  rw [answeredIn_append, List.filter_append]
  by_cases h : isAsked g s e = true ∧ sweepAnswer g cls s e = .admitted
  · simp [h, List.filter_singleton, Bool.cond_eq_ite]
  · rw [if_neg h, if_neg fun ⟨hasked, ha, _⟩ => h ⟨hasked, ha⟩]
    rfl

theorem askedOn_append (g : GroupId) (q : SegId) (s : State) (l : List EntryId) (e : EntryId) :
    askedOn g q s (l ++ [e]) = askedOn g q s l + if isAsked g s e = true ∧ (entry e s).cfg.seg = q then 1 else 0 := by
  unfold askedOn
  rw [List.filter_append, List.length_append, List.filter_singleton]
  simp only [Bool.cond_eq_ite, Bool.and_eq_true, beq_iff_eq]
  split <;> rfl

/-- The group counts the next answer. -/
theorem askingGroup_append {g : GroupId} (cls : JobClass) {s : State} (l : List EntryId) {e : EntryId}
    (he : isAsked g s e = true) :
    askingGroup g cls s (l ++ [e]) = counted (sweepAnswer g cls s e) (askingGroup g cls s l) := by
  simp only [askingGroup, answeredIn_append, he, true_and]
  cases sweepAnswer g cls s e <;> simp [counted]

theorem flags_or_right_comm (x y z : BitVec 13) : x ||| y ||| z = x ||| z ||| y := by
  rw [BitVec.or_assoc, BitVec.or_comm y, ← BitVec.or_assoc]

/-- The flags of the next answer are added. -/
theorem askingFlags_append {g : GroupId} (cls : JobClass) {s : State} (l : List EntryId) {e : EntryId}
    (he : isAsked g s e = true) :
    askingFlags g cls s (l ++ [e])
      = askingFlags g cls s l ||| answerFlags cls (sweepAnswer g cls s e) (entry e s) := by
  simp only [askingFlags, answeredIn_append, he, true_and]
  cases sweepAnswer g cls s e with
  | admitted => simp [answerFlags]
  | full =>
    cases cls
    · simp [answerFlags]
    · by_cases hfull : answeredIn g .routine .full s l = []
      · simp [answerFlags, hfull, flags_or_right_comm]
      · have hset : ∀ x y : BitVec 13, x ||| 0x100#13 ||| y ||| 0x100#13 = x ||| 0x100#13 ||| y := fun x y => by
          rw [flags_or_right_comm, BitVec.or_assoc x, BitVec.or_self]
        simp [answerFlags, hfull, hset]
  | down =>
    cases hmark : (entry e s).faultMark
    · cases (answeredIn g cls .down s l).any (fun e => !(entry e s).faultMark) <;>
        simp [answerFlags, hmark, BitVec.or_assoc]
    · simp [answerFlags, hmark]

/-- The members listed before one are those of lower index (R38: ascending order). -/
theorem mem_before_iff {l r : List EntryId} {e : EntryId} (h : indices 128 = l ++ e :: r) (d : EntryId) :
    d ∈ l ↔ d < e := by
  have hsorted : (l ++ e :: r).Pairwise (· < ·) := h ▸ List.pairwise_lt_finRange 128
  obtain ⟨-, her, hle⟩ := List.pairwise_append.1 hsorted
  refine ⟨fun hd => hle d hd e (by simp), fun hd => ?_⟩
  have hmem : d ∈ l ++ e :: r := h ▸ mem_indices d
  rcases List.mem_append.1 hmem with hl | hr
  · exact hl
  · rcases List.mem_cons.1 hr with rfl | hr
    · exact absurd hd (lt_irrefl d)
    · exact absurd hd (lt_asymm ((List.pairwise_cons.1 her).1 d hr))

theorem askedBefore_eq_askedOn {g : GroupId} {s : State} {l r : List EntryId} {e : EntryId}
    (h : indices 128 = l ++ e :: r) : askedBefore g s e = askedOn g (entry e s).cfg.seg s l := by
  have hr : ∀ d ∈ e :: r, ¬ d < e := fun d hd hlt => by
    have hnodup : (l ++ e :: r).Nodup := h ▸ List.nodup_finRange 128
    obtain ⟨-, -, hdisjoint⟩ := List.nodup_append.1 hnodup
    exact hdisjoint d ((mem_before_iff h d).2 hlt) d hd rfl
  have hnone : (e :: r).filter (fun d => decide (d < e) && isAsked g s d && (entry d s).cfg.seg == (entry e s).cfg.seg)
      = [] := List.filter_eq_nil_iff.2 fun d hd => by simp [hr d hd]
  unfold askedBefore askedOn
  rw [h, List.filter_append, hnone, List.append_nil]
  refine congrArg List.length (List.filter_congr fun d hd => ?_)
  simp [(mem_before_iff h d).1 hd]

/-- Jobs join their queue in the order asked until it has reached the limit of the class (R63). -/
theorem length_joinedOn {g : GroupId} {cls : JobClass} {q : SegId} {s : State} (hq : isDown q s = false)
    {l r : List EntryId} (h : indices 128 = l ++ r) :
    (joinedOn g cls q s l).length = min (askedOn g q s l) (limit cls - occupancy (queue q s)) := by
  induction l using List.reverseRecOn generalizing r with
  | nil => simp [joinedOn, answeredIn, askedOn]
  | append_singleton l e ih =>
    rw [List.append_assoc, List.singleton_append] at h
    have hl := ih h
    rw [joinedOn_append, askedOn_append, List.length_append]
    by_cases he : isAsked g s e = true ∧ (entry e s).cfg.seg = q
    · obtain ⟨hasked, rfl⟩ := he
      have hanswer : sweepAnswer g cls s e = .admitted
          ↔ askedOn g (entry e s).cfg.seg s l < limit cls - occupancy (queue (entry e s).cfg.seg s) := by
        simp only [sweepAnswer, hq, Bool.false_eq_true, if_false, askedBefore_eq_askedOn h]
        split
        · simp; omega
        · simp; omega
      simp only [hasked, hanswer, true_and, and_true, if_true]
      split <;> simp <;> omega
    · have hno : ¬ (isAsked g s e = true ∧ sweepAnswer g cls s e = .admitted ∧ (entry e s).cfg.seg = q) :=
        fun ⟨hasked, _, hseg⟩ => he ⟨hasked, hseg⟩
      rw [if_neg hno, if_neg he]
      simpa using hl

theorem occupancy_withTail (cls : JobClass) (js : List Job) (q : SegQueue) :
    occupancy (withTail cls js q) = occupancy q + js.length := by
  cases cls <;> simp [occupancy, withTail] <;> omega

theorem withTail_withTail (cls : JobClass) (js ks : List Job) (q : SegQueue) :
    withTail cls ks (withTail cls js q) = withTail cls (js ++ ks) q := by
  cases cls <;> simp [withTail]

/-! ### The state when all have been asked -/

theorem entry_sweepAsked (g : GroupId) (cls : JobClass) (s : State) (d : EntryId) :
    entry d (sweepAsked g cls s)
      = if isAsked g s d = true then askedEntry cls (sweepAnswer g cls s d) (entry d s) else entry d s := by
  simp [sweepAsked, entry]

theorem queue_sweepAsked (g : GroupId) (cls : JobClass) (s : State) (q : SegId) :
    queue q (sweepAsked g cls s)
      = withTail cls ((joinedOn g cls q s (indices 128)).map fun e => refreshJob e cls (some g)) (queue q s) := by
  simp [sweepAsked, queue, joinedOn, answeredIn, answeredBy]

theorem ctl_sweepAsked (g : GroupId) (cls : JobClass) (s : State) (q : SegId) :
    ctl q (sweepAsked g cls s)
      = if beginsWait q s = true ∧ joinedOn g cls q s (indices 128) ≠ [] then
          { ctl q s with busySince := some s.timebase }
        else ctl q s := by
  simp [sweepAsked, ctl, joinedOn, answeredIn, answeredBy]

theorem group_sweepAsked (g : GroupId) (cls : JobClass) (s : State) :
    group g (sweepAsked g cls s) = askingGroup g cls s (indices 128) := getAt_putAt_same _ _ _

/-! ### The induction over the members -/

namespace AskedThese

theorem isDown_eq {g : GroupId} {cls : JobClass} {l : List EntryId} {s t : State} (h : AskedThese g cls l s t)
    (q : SegId) : isDown q t = isDown q s := by
  have hstate : (ctl q t).state = (ctl q s).state := by
    rw [h.ctls]
    split <;> rfl
  have hresetting : t.resetting = s.resetting := by rw [h.frame]
  rw [isDown, hstate, hresetting]
  rfl

/-- The next member's queue gives it the answer that the statement counts from the start. -/
theorem answerOf_eq {g : GroupId} {cls : JobClass} {l r : List EntryId} {s t : State} {e : EntryId}
    (h : AskedThese g cls l s t) (hl : indices 128 = l ++ e :: r) :
    answerOf (entry e s).cfg.seg cls t = sweepAnswer g cls s e := by
  unfold answerOf sweepAnswer
  dsimp only
  rw [h.isDown_eq]
  cases hdown : isDown (entry e s).cfg.seg s
  · have hfull : limit cls ≤ occupancy (queue (entry e s).cfg.seg t)
        ↔ limit cls ≤ occupancy (queue (entry e s).cfg.seg s) + askedBefore g s e := by
      rw [h.queues, occupancy_withTail, List.length_map, length_joinedOn hdown hl, askedBefore_eq_askedOn hl]
      omega
    simp only [hfull, Bool.false_eq_true, if_false]
  · rfl

/-- A member not asked yet stands as it did at the start. -/
theorem entry_next {g : GroupId} {cls : JobClass} {l r : List EntryId} {s t : State} {e : EntryId}
    (h : AskedThese g cls l s t) (hl : indices 128 = l ++ e :: r) : entry e t = entry e s := by
  rw [h.entries, if_neg fun he => lt_irrefl e ((mem_before_iff hl e).1 he.1)]


/-- A queue begins its busy wait with the first job that joins it (R98). -/
theorem beginsWait_eq {g : GroupId} {cls : JobClass} {l : List EntryId} {s t : State} (h : AskedThese g cls l s t)
    (q : SegId) : beginsWait q t = (beginsWait q s && (joinedOn g cls q s l).isEmpty) := by
  obtain ⟨hstate, hactive⟩ : (ctl q t).state = (ctl q s).state ∧ (ctl q t).active = (ctl q s).active := by
    rw [h.ctls]
    split <;> exact ⟨rfl, rfl⟩
  unfold beginsWait
  rw [hstate, hactive, h.queues, occupancy_withTail, List.length_map]
  cases joinedOn g cls q s l <;> simp

/-- A member that is not asked adds nothing. -/
theorem step_notAsked {g : GroupId} {cls : JobClass} {l : List EntryId} {s t : State} {e : EntryId}
    (h : AskedThese g cls l s t) (he : isAsked g s e = false) : AskedThese g cls (l ++ [e]) s t := by
  have hanswered : ∀ a, answeredIn g cls a s (l ++ [e]) = answeredIn g cls a s l := fun a => by
    simp [answeredIn_append, he]
  have hjoined : ∀ q, joinedOn g cls q s (l ++ [e]) = joinedOn g cls q s l := fun q => by simp [joinedOn_append, he]
  refine ⟨fun d => ?_, fun q => ?_, fun q => ?_, ?_, ?_, h.frame⟩
  · have hmem : (d ∈ l ++ [e] ∧ isAsked g s d = true) ↔ (d ∈ l ∧ isAsked g s d = true) := by
      rw [List.mem_append, List.mem_singleton, or_and_right, or_iff_left]
      rintro ⟨rfl, hd⟩
      exact absurd hd (by simp [he])
    simp only [hmem]
    exact h.entries d
  · rw [hjoined]
    exact h.queues q
  · rw [hjoined]
    exact h.ctls q
  · simpa only [askingGroup, hanswered] using h.groups
  · simpa only [askingFlags, hanswered] using h.flags

/-- A member that is asked adds its answer. -/
theorem step_asked {g : GroupId} {cls : JobClass} {l r : List EntryId} {s t : State} {e : EntryId}
    (h : AskedThese g cls l s t) (hl : indices 128 = l ++ e :: r) (he : isAsked g s e = true) :
    AskedThese g cls (l ++ [e]) s (answerTaken g cls (sweepAnswer g cls s e) e t) := by
  have hentry := h.entry_next hl
  have htimebase : t.timebase = s.timebase := by rw [h.frame]
  refine ⟨fun d => ?_, fun q => ?_, fun q => ?_, ?_, ?_, h.frame.trans (answerTaken_frame _ _ _ _ _)⟩
  · rw [entry_answerTaken]
    by_cases hd : d = e
    · subst hd
      simp [hentry, he]
    · simp [hd, h.entries]
  · rw [queue_answerTaken, hentry, joinedOn_append, h.queues]
    by_cases hq : sweepAnswer g cls s e = .admitted ∧ q = (entry e s).cfg.seg
    · simp [hq, he, withTail_withTail]
    · rw [if_neg hq, if_neg fun ⟨_, ha, hseg⟩ => hq ⟨ha, hseg.symm⟩, List.append_nil]
  · rw [ctl_answerTaken, hentry, joinedOn_append, h.beginsWait_eq, h.ctls, htimebase]
    by_cases hq : sweepAnswer g cls s e = .admitted ∧ q = (entry e s).cfg.seg
    · cases hj : joinedOn g cls q s l <;> simp [hq, he]
    · have hnot : ¬ (sweepAnswer g cls s e = .admitted ∧ q = (entry e s).cfg.seg
          ∧ (beginsWait q s && (joinedOn g cls q s l).isEmpty) = true) := fun ⟨ha, hseg, _⟩ => hq ⟨ha, hseg⟩
      have hsame : ¬ (isAsked g s e = true ∧ sweepAnswer g cls s e = .admitted ∧ (entry e s).cfg.seg = q) :=
        fun ⟨_, ha, hseg⟩ => hq ⟨ha, hseg.symm⟩
      rw [if_neg hnot, if_neg hsame, List.append_nil]
  · have hgroup : group g t = askingGroup g cls s l := by rw [group, h.groups, getAt_putAt_same]
    rw [groups_answerTaken, hgroup, h.groups, putAt_putAt, askingGroup_append cls l he]
  · rw [flags_answerTaken, hentry, h.flags, askingFlags_append cls l he]

/-- What a member that is not asked, or asked with its answer, adds to the state of those before it. -/
theorem step {g : GroupId} {cls : JobClass} {l r : List EntryId} {s t : State} {e : EntryId}
    (h : AskedThese g cls l s t) (hl : indices 128 = l ++ e :: r) :
    AskedThese g cls (l ++ [e]) s (askMember g cls t e) := by
  have hasked : isAsked g t e = isAsked g s e := by rw [isAsked, h.entry_next hl]; rfl
  rw [askMember_eq, hasked, h.entry_next hl, h.answerOf_eq hl]
  split
  · next hyes => exact h.step_asked hl hyes
  · next hno => exact h.step_notAsked (Bool.eq_false_iff.2 hno)

/-- The sweep's start before a member is asked. -/
theorem none_asked (g : GroupId) (cls : JobClass) (s : State) :
    AskedThese g cls [] s (modGroup g (fun x => { x with state := .sweeping, torn := false, outstanding := 0 }) s) where
  entries d := by simp
  queues q := by cases cls <;> simp [joinedOn, answeredIn, withTail]
  ctls q := by simp [joinedOn, answeredIn]
  groups := rfl
  flags := by simp [askingFlags, answeredIn]
  frame := rfl

/-- The members left are asked in ascending order. -/
theorem foldl_askMember {g : GroupId} {cls : JobClass} {s : State} (r l : List EntryId) {t : State}
    (hl : indices 128 = l ++ r) (h : AskedThese g cls l s t) :
    AskedThese g cls (indices 128) s (r.foldl (askMember g cls) t) := by
  induction r generalizing l t with
  | nil => rwa [hl, List.append_nil]
  | cons e r ih =>
    rw [List.foldl_cons]
    exact ih (l ++ [e]) (by rw [hl, List.append_assoc, List.singleton_append]) (h.step hl)

/-- All members asked: the state of the statement. -/
theorem eq_sweepAsked {g : GroupId} {cls : JobClass} {s t : State} (h : AskedThese g cls (indices 128) s t) :
    t = sweepAsked g cls s := by
  have hentries : t.entries = (sweepAsked g cls s).entries := getAt_ext fun d => by
    rw [← entry, ← entry, h.entries, entry_sweepAsked]
    simp only [mem_indices, true_and]
  have hqueues : t.queues = (sweepAsked g cls s).queues :=
    getAt_ext fun q => (h.queues q).trans (queue_sweepAsked g cls s q).symm
  have hctls : t.ctls = (sweepAsked g cls s).ctls :=
    getAt_ext fun q => (h.ctls q).trans (ctl_sweepAsked g cls s q).symm
  rw [show t = _ from h.frame, hentries, hqueues, hctls, h.groups, h.flags]
  rfl

end AskedThese

/-! ## Sweep starts (R38) and the restart (R44) -/

/-- The start of a sweep up to its end, if it ends at once. -/
theorem beginSweep_eq (g : GroupId) (cls : JobClass) (s : State) :
    beginSweep g cls s
      = if answeredBy g cls .admitted s = [] then tornEnded g (sweepAsked g cls s) else sweepAsked g cls s := by
  have hasked : (indices 128).foldl (askMember g cls)
      (modGroup g (fun x => { x with state := .sweeping, torn := false, outstanding := 0 }) s) = sweepAsked g cls s :=
    (AskedThese.foldl_askMember (indices 128) [] rfl (.none_asked g cls s)).eq_sweepAsked
  have hnone : (group g (sweepAsked g cls s)).outstanding = 0 ↔ answeredBy g cls .admitted s = [] := by
    rw [group_sweepAsked]
    exact List.length_eq_zero_iff
  unfold beginSweep
  dsimp only
  rw [hasked, tornEnd_eq_tornEnded]
  simp only [hnone]

theorem sweepAgain_beginSweep (g : GroupId) (cls : JobClass) (s : State) :
    (group g (beginSweep g cls s)).sweepAgain = (group g s).sweepAgain := by
  rw [beginSweep_eq]
  split
  · rw [sweepAgain_tornEnded, group_sweepAsked]
    rfl
  · rw [group_sweepAsked]
    rfl

theorem restartSweep_of_clear {g : GroupId} {s : State} (h : (group g s).sweepAgain = false) : restartSweep g s = s := by
  rw [restartSweep, h]
  rfl

/-- A start that ends at once with sweep-again clear does not start again. -/
theorem startSweep_of_clear {g : GroupId} (cls : JobClass) {s : State} (h : (group g s).sweepAgain = false) :
    startSweep g cls s = beginSweep g cls s := by
  unfold startSweep
  dsimp only
  rw [restartSweep_of_clear (by rw [sweepAgain_beginSweep, h]), ite_self]

/-- With sweep-again set it is cleared and an URGENT sweep starts (R44). -/
theorem restartSweep_of_set {g : GroupId} {s : State} (h : (group g s).sweepAgain = true) :
    restartSweep g s = startSweep g .urgent (modGroup g (fun x => { x with sweepAgain := false }) s) := by
  rw [restartSweep, if_pos h, startSweep_of_clear _ (by rw [group_modGroup_same])]

/-- Settles O23: each end is that of its rule, and neither changes sweep-again. -/
theorem sweepEndsPublishOrTear : Obligations.SweepEndsPublishOrTear := by
  intro g s
  dsimp only
  set ended := if (group g s).torn = true then tornEnded g s else groupPublished g s with hended
  have hrun : endSweep g s = restartSweep g ended := by
    rw [endSweep, tornEnd_eq_tornEnded, groupPublish_eq_groupPublished]
  have hagain : (group g ended).sweepAgain = (group g s).sweepAgain := by
    rw [hended]
    split
    · exact sweepAgain_tornEnded g s
    · exact sweepAgain_groupPublished g s
  refine ⟨fun h => ?_, fun h => ?_⟩
  · rw [hrun, restartSweep_of_clear (hagain.trans h)]
  · rw [hrun, restartSweep_of_set (hagain.trans h)]

/-- Settles O22: the members asked so far give the state of the statement, and a start with none admitted has ended. -/
theorem sweepStartAsksEveryMember : Obligations.SweepStartAsksEveryMember := by
  intro g cls s
  dsimp only
  have hagain : (group g (tornEnded g (sweepAsked g cls s))).sweepAgain = (group g s).sweepAgain := by
    rw [sweepAgain_tornEnded, group_sweepAsked]
    rfl
  have hstart : answeredBy g cls .admitted s = [] →
      startSweep g cls s = restartSweep g (tornEnded g (sweepAsked g cls s)) := fun hnone => by
    unfold startSweep
    dsimp only
    rw [beginSweep_eq, if_pos hnone, if_pos (state_tornEnded _ _)]
  refine ⟨fun hsome => ?_, fun hnone h => ?_, fun hnone h => ?_⟩
  · have hsweeping : (group g (sweepAsked g cls s)).state = .sweeping := by
      rw [group_sweepAsked]
      rfl
    unfold startSweep
    dsimp only
    rw [beginSweep_eq, if_neg hsome, hsweeping]
    rfl
  · rw [hstart hnone, restartSweep_of_clear (hagain.trans h)]
  · rw [hstart hnone, restartSweep_of_set (hagain.trans h)]

end Sys2Proof.Proofs
end

section
/-! The commands and events of the Refresh Scheduler (R28, R29, R31, R33 to R36, R39, R40): due expiries, requests for a refresh or
a sweep, the period of a group, and a member's completion. -/

namespace Sys2Proof.Proofs

open Sys2Proof.Machine Sys2Proof.Safety Sys2Proof.Spec

/-! ## ENTRY_REFRESH (R31) -/

/-- What ENTRY_REFRESH answers by the refresh activity (R31, R64). -/
theorem demandRefresh_snd (e : EntryId) (s : State) :
    (demandRefresh e s).2
      = if (entry e s).refresh = .idle then admissionToAnswer (answerOf (entry e s).cfg.seg .urgent s) else .accepted := by
  unfold demandRefresh
  cases (entry e s).refresh with
  | idle => exact congrArg admissionToAnswer (requestRefresh_snd e .urgent none s)
  | active => rfl
  | held => rfl
  | queued =>
    cases (entry e s).refreshClass with
    | urgent => rfl
    | routine => rcases promote (entry e s).cfg.seg e s with ⟨t, _ | _⟩ <;> rfl

theorem demanded_of_idle {e : EntryId} {s : State} (h : (entry e s).refresh = .idle) :
    demanded e s = requested e .urgent none s := by
  unfold demanded
  rw [h]

/-- An on-demand refresh neither reads nor changes the command word. -/
theorem demanded_issued (code arg : Byte) (tag : Half) (e : EntryId) (s : State) :
    demanded e (issued code arg tag s) = issued code arg tag (demanded e s) := by
  have hentry : entry e (issued code arg tag s) = entry e s := rfl
  have hqueue : ∀ q, queue q (issued code arg tag s) = queue q s := fun _ => rfl
  unfold demanded
  simp only [hentry, hqueue, requested_issued]
  cases (entry e s).refresh with
  | idle => rfl
  | active => rfl
  | held => rfl
  | queued =>
    cases (entry e s).refreshClass with
    | urgent => rfl
    | routine =>
      dsimp only
      split
      · rfl
      · split <;> rfl

theorem entryRefresh_badState {e : EntryId} {s : State} (h : (entry e s).enable ≠ .enabled) :
    entryRefresh e s = (s, .refused .badState) := by
  rw [entryRefresh, if_pos h]

theorem entryRefresh_grouped {e : EntryId} {s : State} (h : (entry e s).enable = .enabled)
    (hg : (entry e s).cfg.group ≠ 0#4) : entryRefresh e s = (s, .refused .grouped) := by
  rw [entryRefresh, if_neg (not_not_intro h), if_pos fun hn => hg ((groupId_eq_none_iff _).1 hn)]

theorem entryRefresh_ungrouped {e : EntryId} {s : State} (h : (entry e s).enable = .enabled)
    (hg : (entry e s).cfg.group = 0#4) : entryRefresh e s = demandRefresh e s := by
  rw [entryRefresh, if_neg (not_not_intro h), if_neg (not_not_intro ((groupId_eq_none_iff _).2 hg))]

/-- Settles O16: the refusals of R31 in their order, then the on-demand refresh with its answer. -/
theorem entryRefreshByActivity : Obligations.EntryRefreshByActivity := by
  intro e tag s hs
  dsimp only
  have hrun : exec (.entryRefresh (indexByte e) tag) s
      = .next (answerCommand 0x03#8 tag (entryRefresh e (issued 0x03#8 (indexByte e) tag s)).2
          (entryRefresh e (issued 0x03#8 (indexByte e) tag s)).1) :=
    congrArg Host.Outcome.next (portCommand_indexByte (by decide) 0x03#8 e tag entryRefresh hs)
  rw [hrun]
  set i := issued 0x03#8 (indexByte e) tag s with hi
  have hanswer : ∀ cls, answerOf (entry e i).cfg.seg cls i = answerOf (entry e s).cfg.seg cls s := fun _ => rfl
  refine ⟨fun h => ?_, fun h hg => ?_, fun h hg => ?_⟩
  · rw [entryRefresh_badState (s := i) h]
    rfl
  · rw [entryRefresh_grouped (s := i) h hg]
    rfl
  · rw [entryRefresh_ungrouped (s := i) h hg, demandRefresh_fst, demandRefresh_snd, hi, demanded_issued, ← hi]
    refine ⟨fun hidle => ?_, fun hbusy => ?_⟩
    · rw [if_pos (show (entry e i).refresh = .idle from hidle), hanswer, demanded_of_idle hidle]
      refine ⟨fun ha => ?_, fun ha => ?_, fun ha => ?_⟩ <;>
        · rw [ha]
          rfl
    · rw [if_neg (show ¬ (entry e i).refresh = .idle from hbusy)]
      rfl

/-! ## Due expiries (R28, R29, R34, R35) -/

/-- A due time is reached while it is not ahead of the timebase (log entry 6). -/
theorem reached_iff (due : Word) (s : State) : reached due s = true ↔ (s.timebase - due).toNat < 2 ^ 31 :=
  decide_eq_true_iff

theorem exec_entryDueExpiry {e : EntryId} {s : State} (hs : s.inReset = false) :
    exec (.entryDueExpiry e) s = .next (entryDueExpiryEvent e s) :=
  congrArg Host.Outcome.next (outOfReset_released hs)

theorem exec_groupDueExpiry {g : GroupId} {s : State} (hs : s.inReset = false) :
    exec (.groupDueExpiry g) s = .next (groupDueExpiryEvent g s) :=
  congrArg Host.Outcome.next (outOfReset_released hs)

theorem entryDueExpiryEvent_reached {e : EntryId} {s : State} {due : Word} (hdue : (entry e s).dueTime = some due)
    (he : (entry e s).enable = .enabled) (hr : (s.timebase - due).toNat < 2 ^ 31) :
    entryDueExpiryEvent e s = entryExpiry e due s := by
  unfold entryDueExpiryEvent
  rw [hdue]
  exact if_pos ⟨he, (reached_iff due s).2 hr⟩

theorem entryDueExpiryEvent_stopped {e : EntryId} {s : State} (hdue : (entry e s).dueTime = none) :
    entryDueExpiryEvent e s = s := by
  unfold entryDueExpiryEvent
  rw [hdue]

theorem entryDueExpiryEvent_ahead {e : EntryId} {s : State} {due : Word} (hdue : (entry e s).dueTime = some due)
    (hr : 2 ^ 31 ≤ (s.timebase - due).toNat) : entryDueExpiryEvent e s = s := by
  unfold entryDueExpiryEvent
  rw [hdue]
  exact if_neg fun h => Nat.not_lt.2 hr ((reached_iff due s).1 h.2)

/-- The expiry of the due timer of an entry whose refresh is under way is coalesced (R29). -/
theorem entryExpiry_underWay {e : EntryId} {s : State} (due : Word)
    (h : (entry e s).refresh = .queued ∨ (entry e s).refresh = .active) :
    entryExpiry e due s
      = modEntry e (fun x => { x with missed := oneMore x.missed })
          (modEntry e (fun x => { x with dueTime := some (due + x.cfg.period.setWidth 32) }) s) := by
  have hkept : (entry e (modEntry e (fun x => { x with dueTime := some (due + x.cfg.period.setWidth 32) }) s)).refresh
      = (entry e s).refresh := by rw [entry_modEntry_same]
  unfold entryExpiry
  dsimp only
  rw [hkept]
  rcases h with h | h
  · rw [h]
    simp only [raiseMissed, satInc_eq_oneMore]
  · rw [h]
    simp only [raiseMissed, satInc_eq_oneMore]

/-- Settles O19: the event is the expiry where it takes place, and the expiry goes by the refresh activity. -/
theorem entryDueExpiryCoalesces : Obligations.EntryDueExpiryCoalesces := by
  intro e s hs
  dsimp only
  rw [exec_entryDueExpiry hs]
  refine ⟨fun due hdue he hr => ⟨fun hidle => ?_, fun hbusy => ?_⟩, fun hdue => ?_, fun due hdue hr => ?_⟩
  · rw [entryDueExpiryEvent_reached hdue he hr, entryExpiry_idle due hidle]
  · rw [entryDueExpiryEvent_reached hdue he hr, entryExpiry_underWay due hbusy]
  · rw [entryDueExpiryEvent_stopped hdue]
  · rw [entryDueExpiryEvent_ahead hdue hr]

theorem groupDueExpiryEvent_reached {g : GroupId} {s : State} {due : Word} (hdue : (group g s).dueTime = some due)
    (hr : (s.timebase - due).toNat < 2 ^ 31) : groupDueExpiryEvent g s = groupExpiry g due s := by
  unfold groupDueExpiryEvent
  rw [hdue]
  exact if_pos ((reached_iff due s).2 hr)

theorem groupDueExpiryEvent_stopped {g : GroupId} {s : State} (hdue : (group g s).dueTime = none) :
    groupDueExpiryEvent g s = s := by
  unfold groupDueExpiryEvent
  rw [hdue]

theorem groupDueExpiryEvent_ahead {g : GroupId} {s : State} {due : Word} (hdue : (group g s).dueTime = some due)
    (hr : 2 ^ 31 ≤ (s.timebase - due).toNat) : groupDueExpiryEvent g s = s := by
  unfold groupDueExpiryEvent
  rw [hdue]
  exact if_neg fun h => Nat.not_lt.2 hr ((reached_iff due s).1 h)

/-- A group whose timer has expired: the next due time, or the timer stops at period 0 (R34). -/
def expiredGroup (due : Word) (x : Group) : Group :=
  { x with dueTime := if x.period = 0#16 then none else some (due + x.period.setWidth 32) }

/-- The expiry of an IDLE group's timer starts a ROUTINE sweep (R35). -/
theorem groupExpiry_idle {g : GroupId} {s : State} (due : Word) (h : (group g s).state = .idle) :
    groupExpiry g due s = startSweep g .routine (modGroup g (expiredGroup due) s) := by
  simp only [groupExpiry, group_modGroup_same, h]
  rfl

/-- The expiry of a SWEEPING group's timer is counted as missed (R35). -/
theorem groupExpiry_sweeping {g : GroupId} {s : State} (due : Word) (h : (group g s).state = .sweeping) :
    groupExpiry g due s
      = modGroup g (fun x => { x with missed := oneMore x.missed }) (modGroup g (expiredGroup due) s) := by
  simp only [groupExpiry, group_modGroup_same, h, satInc_eq_oneMore]
  rfl

/-! ## GROUP_SWEEP (R36) -/

/-- The arguments 1 to 15 name the groups (R147). -/
theorem groupArg_eq {g : GroupId} {arg : Byte} (h : arg.toNat = g.val + 1) : groupArg arg = some g := by
  have hne : arg ≠ 0#8 := by
    rintro rfl
    simp at h
  rw [groupArg, if_neg hne, h, Nat.add_sub_cancel, indexOf_val]

/-- GROUP_SWEEP is answered by the group, which finds the command word kept (R146). -/
theorem exec_groupSweep {g : GroupId} {arg : Byte} (h : arg.toNat = g.val + 1) (tag : Half) {s : State} (hs : Ready s) :
    exec (.groupSweep arg tag) s
      = .next (answerCommand 0x10#8 tag (groupSweep g (issued 0x10#8 arg tag s)).2
          (groupSweep g (issued 0x10#8 arg tag s)).1) := by
  refine congrArg Host.Outcome.next ?_
  unfold commandGroupSweep
  rw [groupArg_eq h, portCommand_ready 0x10#8 arg tag g groupSweep hs.1 hs.2]
  rfl

theorem groupSweep_noMember {g : GroupId} {s : State} (h : memberCount g s = 0) :
    groupSweep g s = (s, .refused .badState) := by
  rw [groupSweep, if_pos h]

theorem groupSweep_members {g : GroupId} {s : State} (h : memberCount g s ≠ 0) :
    groupSweep g s = (requestSweep g s, .accepted) := by
  rw [groupSweep, if_neg h]

theorem requestSweep_idle {g : GroupId} {s : State} (h : (group g s).state = .idle) :
    requestSweep g s = startSweep g .urgent s := by
  rw [requestSweep, h]

theorem requestSweep_sweeping {g : GroupId} {s : State} (h : (group g s).state = .sweeping) :
    requestSweep g s = modGroup g (fun x => { x with sweepAgain := true }) s := by
  rw [requestSweep, h]

/-- Settles O21: the command and the expiry, each by the group's state. -/
theorem sweepRequests : Obligations.SweepRequests := by
  intro g arg tag s harg
  refine ⟨fun hs => ?_, fun hs => ?_⟩
  · dsimp only
    rw [exec_groupSweep harg tag hs]
    set i := issued 0x10#8 arg tag s
    have hcount : memberCount g i = memberCount g s := memberCount_congr g rfl
    refine ⟨fun h => ?_, fun h hidle => ?_, fun h hsweeping => ?_⟩
    · rw [groupSweep_noMember (hcount.trans h)]
      rfl
    · rw [groupSweep_members (hcount.trans_ne h), requestSweep_idle (s := i) hidle]
      rfl
    · rw [groupSweep_members (hcount.trans_ne h), requestSweep_sweeping (s := i) hsweeping]
      rfl
  · dsimp only
    rw [exec_groupDueExpiry hs]
    refine ⟨fun due hdue hr hidle => ?_, fun due hdue hr hsweeping => ?_, fun hdue => ?_, fun due hdue hr => ?_⟩
    · rw [groupDueExpiryEvent_reached hdue hr, groupExpiry_idle due hidle]
      rfl
    · rw [groupDueExpiryEvent_reached hdue hr, groupExpiry_sweeping due hsweeping]
      rfl
    · rw [groupDueExpiryEvent_stopped hdue]
    · rw [groupDueExpiryEvent_ahead hdue hr]

/-! ## The period of a group (R33) -/

theorem accessError_eq (a : Addr) (isWrite : Bool) (r : AccessReason) (s : State) :
    accessError a isWrite r s = errorTaken a isWrite r s := rfl

/-- A write that a row of Table 10.1 drops. -/
theorem writeWord_error {l : Option Loc} {a : Addr} {be : BitVec 4} {s : State} {r : AccessReason} (data : Word)
    (hs : s.inReset = false) (hr : writeError l be s = some r) : writeWord l a be data s = errorTaken a true r s := by
  unfold writeWord
  rw [hs, hr, ← accessError_eq]
  cases l <;> rfl

/-- A write that no row of Table 10.1 drops. -/
theorem writeWord_stored {l : Loc} (a : Addr) {be : BitVec 4} {s : State} (data : Word) (hs : s.inReset = false)
    (hr : writeError (some l) be s = none) : writeWord (some l) a be data s = storeLoc l be data s := by
  unfold writeWord
  rw [hs, hr]
  rfl

theorem writeError_readOnly {l : Loc} (be : BitVec 4) (s : State) (h : l.kind = .readOnly) :
    writeError (some l) be s = some .readOnly := by
  simp [writeError, h]

/-- The period word: a full write, taken outside RESETTING only. -/
theorem writeError_groupPeriod (g : GroupId) (be : BitVec 4) (s : State) :
    writeError (some (.groupPeriod g)) be s
      = if be ≠ 0xF#4 then some .partialWrite else if s.resetting = true then some .resetting else none := by
  simp [writeError, Loc.kind, takenWhileResetting, locked, readModeStaging]

/-- The word of a group record that a period write selects. -/
theorem groupLoc_period {g : GroupId} {r : Fin 16} (h : r.val = g.val + 1) : groupLoc r 0 = some (.groupPeriod g) := by
  have hg : (⟨r.val - 1, by omega⟩ : GroupId) = g := Fin.ext (by simp [h])
  unfold groupLoc
  rw [dif_neg (by omega), hg]
  rfl

theorem exec_groupPeriodWrite {g : GroupId} {r : Fin 16} (h : r.val = g.val + 1) (be : BitVec 4) (data : Word)
    (s : State) :
    exec (.groupPeriodWrite r be data) s
      = .next (writeWord (some (.groupPeriod g)) (groupPeriodAddr r) be data s) := by
  rw [← groupLoc_period h]
  rfl

/-- A stored period where no timer starts (R33). -/
theorem storeGroupPeriod_kept {g : GroupId} {period : Half} {s : State}
    (h : ¬ ((group g s).dueTime = none ∧ 1 ≤ memberCount g s ∧ period ≠ 0#16)) :
    storeGroupPeriod g period s = modGroup g (fun x => { x with period := period }) s := by
  rw [storeGroupPeriod, if_neg h]

/-- A stored period that starts the timer (R33, R34). -/
theorem storeGroupPeriod_starts {g : GroupId} {period : Half} {s : State} (hdue : (group g s).dueTime = none)
    (hcount : 1 ≤ memberCount g s) (hp : period ≠ 0#16) :
    storeGroupPeriod g period s = groupExpiry g s.timebase (modGroup g (fun x => { x with period := period }) s) := by
  rw [storeGroupPeriod, if_pos ⟨hdue, hcount, hp⟩]
  rfl

/-- A write of a read-only word of the window. -/
theorem exec_hostWrite_readOnly {a : Addr} {l : Loc} (be : BitVec 4) (data : Word) {s : State} (hs : s.inReset = false)
    (ha : locate a = some l) (hl : l.kind = .readOnly) :
    exec (.hostWrite a be data) s = .next (errorTaken a true .readOnly s) := by
  refine congrArg Host.Outcome.next ?_
  rw [hostWrite, ha, writeWord_error data hs (writeError_readOnly be s hl)]

/-- Settles O10: the period word by its row of Table 10.1, the stored period by R33; the record's other words are read-only. -/
theorem groupPeriodWrites : Obligations.GroupPeriodWrites := by
  intro g r a be data s hs hr
  dsimp only
  rw [exec_groupPeriodWrite hr]
  refine ⟨fun hbe hresetting => ?_, fun hbe => ?_, fun hbe hresetting => ?_, ?_, fun ha => ?_⟩
  · have hstored : writeWord (some (.groupPeriod g)) (groupPeriodAddr r) be data s
        = storeGroupPeriod g (data.extractLsb' 0 16) s :=
      writeWord_stored _ data hs (by simp [writeError_groupPeriod, hbe, hresetting])
    rw [hstored]
    refine ⟨fun hdue => ?_, fun hcount => ?_, fun hp => ?_, fun hdue hcount hp => ?_⟩
    · rw [storeGroupPeriod_kept fun ⟨hnone, _, _⟩ => hdue hnone]
    · rw [storeGroupPeriod_kept fun ⟨_, hmember, _⟩ => by omega]
    · rw [storeGroupPeriod_kept fun ⟨_, _, hne⟩ => hne hp]
    · rw [storeGroupPeriod_starts hdue hcount hp]
  · rw [writeWord_error data hs (r := .partialWrite) (by simp [writeError_groupPeriod, hbe])]
    rfl
  · rw [writeWord_error data hs (r := .resetting) (by simp [writeError_groupPeriod, hbe, hresetting])]
    rfl
  · exact congrArg Host.Outcome.next (writeWord_error data hs (writeError_readOnly (l := .groupZero) be s rfl))
  · rcases ha with ha | ha | ha
    · exact exec_hostWrite_readOnly be data hs ha rfl
    · exact exec_hostWrite_readOnly be data hs ha rfl
    · exact exec_hostWrite_readOnly be data hs ha rfl

/-! ## A member's refresh completion (R39, R40) -/

theorem memberRefreshCompletionEvent_enabled {e : EntryId} {g : GroupId} {c : Completion} {s s0 : State}
    (hfirst : FirstReport e (.completed c) s s0) (horder : InFlushOrder c s) (he : (entry e s).enable = .enabled)
    (hc : c.ref = .refresh e) (htag : c.tag = some g) :
    memberRefreshCompletionEvent e s = memberRefresh e g c s0 := by
  obtain ⟨before, after, hreports, rfl, hsplit⟩ := splitAtFirst_of_firstReport hfirst
  have hnone := any_mustPrecede_of_inFlushOrder horder hreports
  have he0 : (entry e { s with reports := before ++ after }).enable = .enabled := he
  unfold memberRefreshCompletionEvent
  simp only [hsplit, htag, takeMemberRefresh, he0, hc, hnone, and_self, if_true]

/-- A member's completion at its group: the outstanding count is lowered, and at 0 the sweep ends. -/
theorem lowerOutstanding_eq (g : GroupId) (s : State) :
    lowerOutstanding g s
      = if (group g s).outstanding - 1 = 0 then
          endSweep g (modGroup g (fun x => { x with outstanding := (group g s).outstanding - 1 }) s)
        else modGroup g (fun x => { x with outstanding := (group g s).outstanding - 1 }) s := by
  unfold lowerOutstanding endIfNoneOutstanding
  rw [group_modGroup_same]
  rfl

/-- The record of a member whose refresh has failed, whether it is fault-marked before the other fields change or after. -/
theorem modEntry_marked_stale (e : EntryId) (r : Result) (s : State) :
    modEntry e (fun x => { x with refresh := .idle, lastRefresh := r }) (markFault e (makeStale e s))
      = marked e (modEntry e (fun x =>
          { x with refresh := .idle, validity := toStale x.validity, lastRefresh := r }) s) := by
  simp only [markFault_eq_marked, makeStale, staled_eq_toStale, marked, modEntry, entry, getAt_putAt_same, putAt_putAt]

theorem memberRefresh_ok {e : EntryId} {g : GroupId} {c : Completion} {s : State} (h : c.result = .ok) :
    memberRefresh e g c s
      = lowerOutstanding g (modEntry e (fun x =>
          { x with held := fill 32 (c.bytes.take x.cfg.length.toNat), refresh := .held, lastRefresh := .ok }) s) := by
  rw [memberRefresh, if_pos h]

theorem memberRefresh_failed {e : EntryId} {g : GroupId} {c : Completion} {s : State} (h : c.result ≠ .ok) :
    memberRefresh e g c s
      = lowerOutstanding g (modGroup g (fun x => { x with torn := true })
          (marked e (modEntry e (fun x =>
            { x with refresh := .idle, validity := toStale x.validity, lastRefresh := c.result }) s))) := by
  rw [memberRefresh, if_neg h, modEntry_marked_stale]

/-- Settles O26: the member's part by the result, then the group's count. -/
theorem memberCompletionsHoldOrTear : Obligations.MemberCompletionsHoldOrTear := by
  intro e g c s s0 hs hfirst horder hc htag he
  have hgroup : group g s0 = group g s := by
    obtain ⟨before, after, -, rfl, -⟩ := splitAtFirst_of_firstReport hfirst
    rfl
  have hrun : exec (.memberRefreshCompletion e) s = .next (memberRefresh e g c s0) := by
    rw [← memberRefreshCompletionEvent_enabled hfirst horder he hc htag]
    exact congrArg Host.Outcome.next (outOfReset_released hs)
  dsimp only
  rw [hrun]
  by_cases hok : c.result = .ok
  · have hcount : ∀ f, group g (modEntry e f s0) = group g s := fun _ => hgroup
    rw [if_pos hok, memberRefresh_ok hok, lowerOutstanding_eq, hcount]
    exact ⟨fun hn => by rw [if_neg hn], fun hn => by rw [if_pos hn]⟩
  · have hcount : ∀ f, group g (modGroup g (fun x => { x with torn := true }) (marked e (modEntry e f s0)))
        = { group g s with torn := true } := fun f => by
      rw [group_modGroup_same, ← hgroup]
      rfl
    rw [if_neg hok, memberRefresh_failed hok, lowerOutstanding_eq, hcount, modGroup_modGroup]
    exact ⟨fun hn => by rw [if_neg hn], fun hn => by rw [if_pos hn]⟩

end Sys2Proof.Proofs
end

section
/-! Writes to the staging buffer and their commit (R48 to R50): the lanes of a stored word, and ENTRY_COMMIT by
write state. -/

namespace Sys2Proof.Proofs

open Sys2Proof.Machine Sys2Proof.Safety Sys2Proof.Spec

/-! ## Staging writes (R48) -/

/-- A byte of a buffer after a write by lanes (R155, R156). -/
theorem getAt_storeLanes {n : Nat} (v : Vector Byte n) (w : Nat) (be : BitVec 4) (data : Word) (i : Fin n) :
    getAt (storeLanes v w be data) i
      = if i.val / 4 = w ∧ be.getLsbD (i.val % 4) = true then data.extractLsb' (8 * (i.val % 4)) 8 else getAt v i :=
  getAt_tabulate n _ i

/-- The rows of Table 10.1 that a staging write can meet: RESETTING, then the stored mode READ. -/
theorem writeError_staging (e : EntryId) (w : Fin 8) (be : BitVec 4) (s : State) :
    writeError (some (.staging e w)) be s
      = if s.resetting = true then some .resetting
        else if (entry e s).cfg.mode = 0#2 then some .readMode else none := by
  simp [writeError, Loc.kind, takenWhileResetting, locked, readModeStaging, EntryConfig.modeIsRead]

/-- Settles O7: the row of Table 10.1 decides, and a stored word goes in lane by lane. -/
theorem stagingWritesAreStoredByLane : Obligations.StagingWritesAreStoredByLane := by
  intro e w be data s hs
  refine ⟨fun hr hmode => ?_, fun hr _ hmode => ?_, fun hr _ => ?_⟩
  · have hnotRead : (entry e s).cfg.mode ≠ 0#2 := by
      rcases hmode with h | h <;> rw [h] <;> decide
    refine ⟨storeLanes (entry e s).staging w.val be data, ?_, getAt_storeLanes _ _ _ _⟩
    exact congrArg Host.Outcome.next (writeWord_stored _ data hs (by simp [writeError_staging, hr, hnotRead]))
  · exact congrArg Host.Outcome.next (writeWord_error data hs (by simp [writeError_staging, hr, hmode]))
  · exact congrArg Host.Outcome.next (writeWord_error data hs (by simp [writeError_staging, hr]))

/-! ## Requests for a WRITE job (R49, R56) -/

/-- The queue answers DOWN by the controller's state, and while RESETTING. -/
theorem isDown_eq_refusesJobs (q : SegId) (s : State) :
    isDown q s = (refusesJobs (ctl q s).state || s.resetting) := by
  unfold isDown
  cases (ctl q s).state <;> rfl

theorem refusesJobs_iff (c : CtlState) :
    refusesJobs c = true ↔ c = .offline ∨ c = .quarantined ∨ c = .stopping := by
  cases c <;> decide

/-- The answer to an URGENT request at a queue that takes jobs. -/
theorem answerOf_urgent {q : SegId} {s : State} (hup : refusesJobs (ctl q s).state = false) (hr : s.resetting = false) :
    answerOf q .urgent s = if 32 ≤ occupancy (queue q s) then .full else .admitted := by
  rw [answerOf, isDown_eq_refusesJobs, hup, hr]
  rfl

/-- A request for a WRITE job with its answer. -/
theorem requestWrite_eq (e : EntryId) (s : State) :
    requestWrite e s
      = (if answerOf (entry e s).cfg.seg .urgent s = .admitted then
          modEntry e (fun x => { x with write := .pending }) (joined (entry e s).cfg.seg (writeJob e) s)
        else s, answerOf (entry e s).cfg.seg .urgent s) := by
  unfold requestWrite
  rw [requestAdmission_eq]
  dsimp only
  cases answerOf (entry e s).cfg.seg .urgent s <;> rfl

/-! ## ENTRY_COMMIT (R49, R50) -/

/-- An accepted commit that finds a refresh QUEUED or ACTIVE at an ungrouped entry sets write-overtaken (R50). -/
theorem overtakeRefresh_eq (e : EntryId) (s : State) :
    overtakeRefresh e s
      = modEntry e (fun x =>
          { x with
            writeOvertaken :=
              x.writeOvertaken || (x.cfg.group == 0#4 && (x.refresh == .queued || x.refresh == .active)) }) s := by
  simp only [overtakeRefresh, groupId_beq_none]

theorem entryCommit_badState {e : EntryId} {s : State} (h : (entry e s).enable ≠ .enabled) :
    entryCommit e s = (s, .refused .badState) := by
  rw [entryCommit, if_pos h]

theorem modeIsRead_iff (c : EntryConfig) : c.modeIsRead = true ↔ c.mode = 0#2 := beq_iff_eq

theorem entryCommit_notWritable {e : EntryId} {s : State} (h : (entry e s).enable = .enabled)
    (hm : (entry e s).cfg.mode = 0#2) : entryCommit e s = (s, .refused .notWritable) := by
  rw [entryCommit, if_neg (not_not_intro h), if_pos ((modeIsRead_iff _).2 hm)]

theorem entryCommit_segmentDown {e : EntryId} {s : State} (h : (entry e s).enable = .enabled)
    (hm : (entry e s).cfg.mode ≠ 0#2) (hdown : refusesJobs (ctl (entry e s).cfg.seg s).state = true) :
    entryCommit e s = (s, .refused .segmentDown) := by
  rw [entryCommit, if_neg (not_not_intro h), if_neg (mt (modeIsRead_iff _).1 hm), if_pos hdown]

section
variable {e : EntryId} {s : State} (h : (entry e s).enable = .enabled) (hm : (entry e s).cfg.mode ≠ 0#2)
  (hup : refusesJobs (ctl (entry e s).cfg.seg s).state = false)
include h hm hup

theorem entryCommit_pending (hw : (entry e s).write = .pending) : entryCommit e s = (overtakeRefresh e s, .accepted) := by
  rw [entryCommit, if_neg (not_not_intro h), if_neg (mt (modeIsRead_iff _).1 hm), if_neg (Bool.eq_false_iff.1 hup), hw]

theorem entryCommit_active (hw : (entry e s).write = .active) :
    entryCommit e s = (overtakeRefresh e (modEntry e (fun x => { x with writeAgain := true }) s), .accepted) := by
  rw [entryCommit, if_neg (not_not_intro h), if_neg (mt (modeIsRead_iff _).1 hm), if_neg (Bool.eq_false_iff.1 hup), hw]

/-- A commit with no write under way requests a job, and goes by the answer. -/
theorem entryCommit_requests (hp : (entry e s).write ≠ .pending) (ha : (entry e s).write ≠ .active) :
    entryCommit e s
      = if answerOf (entry e s).cfg.seg .urgent s = .admitted then (overtakeRefresh e (requestWrite e s).1, .accepted)
        else (s, admissionToAnswer (answerOf (entry e s).cfg.seg .urgent s)) := by
  rw [entryCommit, if_neg (not_not_intro h), if_neg (mt (modeIsRead_iff _).1 hm), if_neg (Bool.eq_false_iff.1 hup),
    requestWrite_eq]
  cases hw : (entry e s).write with
  | pending => exact absurd hw hp
  | active => exact absurd hw ha
  | _ => cases answerOf (entry e s).cfg.seg .urgent s <;> rfl

end

/-- Settles O17: the refusals of R49 in their order, then the commit by the write state. -/
theorem entryCommitByWriteState : Obligations.EntryCommitByWriteState := by
  intro e tag s hs
  dsimp only
  have hrun : exec (.entryCommit (indexByte e) tag) s
      = .next (answerCommand 0x04#8 tag (entryCommit e (issued 0x04#8 (indexByte e) tag s)).2
          (entryCommit e (issued 0x04#8 (indexByte e) tag s)).1) :=
    congrArg Host.Outcome.next (portCommand_indexByte (by decide) 0x04#8 e tag entryCommit hs)
  rw [hrun, ← refusesJobs_iff, Bool.not_eq_true]
  set i := issued 0x04#8 (indexByte e) tag s with hi
  refine ⟨fun h => ?_, fun h hm => ?_, fun h hm hdown => ?_,
    fun h hm hup => ⟨fun hw => ?_, fun hw => ?_, fun hp ha => ?_⟩⟩
  · rw [entryCommit_badState (s := i) h]
    rfl
  · rw [entryCommit_notWritable (s := i) h hm]
    rfl
  · rw [entryCommit_segmentDown (s := i) h hm hdown]
    rfl
  · rw [entryCommit_pending (s := i) h hm hup hw, overtakeRefresh_eq]
    rfl
  · rw [entryCommit_active (s := i) h hm hup hw, overtakeRefresh_eq]
    rfl
  · have hanswer : answerOf (entry e i).cfg.seg .urgent i
        = if 32 ≤ occupancy (queue (entry e s).cfg.seg s) then .full else .admitted :=
      answerOf_urgent (s := i) hup hs.2
    rw [entryCommit_requests (s := i) h hm hup hp ha, requestWrite_eq, overtakeRefresh_eq, hanswer]
    refine ⟨fun hfull => ?_, fun hplace => ?_⟩
    · rw [if_pos hfull]
      rfl
    · rw [if_neg (Nat.not_le.2 hplace)]
      rfl

end Sys2Proof.Proofs
end

section
/-! Completions of an ENABLED entry's REFRESH and WRITE jobs (R16, R55, R56, R58, R59). -/

namespace Sys2Proof.Proofs

open Sys2Proof.Machine Sys2Proof.Safety Sys2Proof.Spec

/-! ## What both completions do to the entry -/

/-- Two changes of an entry that agree on its record are one. -/
theorem modEntry_congr {e : EntryId} {f g : Entry → Entry} {s : State} (h : f (entry e s) = g (entry e s)) :
    modEntry e f s = modEntry e g s := by
  rw [modEntry, modEntry, h]

/-- The publish of an ungrouped entry keeps its sweep number (R12). -/
theorem publish_ungrouped (e : EntryId) (bytes : List Byte) (s : State) :
    publish e bytes none s = modEntry e (publishedEntry bytes s.timebase) s := rfl

theorem entry_marked (e : EntryId) (s : State) : entry e (marked e s) = { entry e s with faultMark := true } :=
  getAt_putAt_same _ _ _

/-! ## Refresh completions without a sweep tag (R16, R58) -/

/-- A completion without a sweep tag does not wait for another (R66). -/
theorem any_mustPrecede_of_untagged {c : Completion} (h : c.tag = none) (before : List Report) :
    before.any (mustPrecede c) = false := by
  rw [List.any_eq_false]
  intro r _
  cases r <;> simp [mustPrecede, h]

theorem refreshCompletionEvent_enabled {e : EntryId} {c : Completion} {s s0 : State}
    (hfirst : FirstReport e (.completed c) s s0) (hc : c.ref = .refresh e) (htag : c.tag = none)
    (he : (entry e s).enable = .enabled) :
    refreshCompletionEvent e s
      = if (entry e s).writeOvertaken = true then overtakenRefresh e c s0 else plainRefresh e c s0 := by
  obtain ⟨before, after, -, rfl, hsplit⟩ := splitAtFirst_of_firstReport hfirst
  have he0 : (entry e { s with reports := before ++ after }).enable = .enabled := he
  unfold refreshCompletionEvent
  simp only [hsplit, hc, htag, any_mustPrecede_of_untagged htag, takeRefresh, he0, true_or, and_self, if_true]
  rfl

/-- The entry when a refresh has ended (last column of R58). -/
def refreshEnded (r : Result) (x : Entry) : Entry :=
  { x with lastRefresh := r, refresh := .idle, refreshAgain := false, writeOvertaken := false }

/-- A refresh that ended other than OK: FRESH becomes STALE, and the entry is fault-marked (R16). -/
def refreshFailed (e : EntryId) (s : State) : State :=
  marked e (modEntry e (fun x => { x with validity := toStale x.validity }) s)

theorem markFault_makeStale (e : EntryId) (s : State) : markFault e (makeStale e s) = refreshFailed e s := by
  simp only [markFault_eq_marked, makeStale, staled_eq_toStale, refreshFailed]

/-- An overtaken refresh asks once more, and its bytes are not published (R58). -/
theorem overtakenRefresh_eq (e : EntryId) (c : Completion) (s : State) :
    overtakenRefresh e c s
      = requested e (if (entry e s).refreshAgain = true then .urgent else .routine) none
          (modEntry e (refreshEnded c.result) (if c.result = .ok then s else refreshFailed e s)) := by
  rw [overtakenRefresh, markFault_makeStale, requestRefresh_fst]
  rfl

/-- A refresh that was not overtaken publishes, and asks once more only where refresh-again is set (R16, R6). -/
theorem plainRefresh_eq {e : EntryId} {s : State} (c : Completion) (h : (entry e s).writeOvertaken = false) :
    plainRefresh e c s
      = let s1 := modEntry e (refreshEnded c.result)
          (if c.result = .ok then modEntry e (publishedEntry c.bytes s.timebase) s else refreshFailed e s)
        if (entry e s).refreshAgain = true then requested e .urgent none s1 else s1 := by
  have hended : ∀ t, (entry e t).writeOvertaken = false →
      modEntry e (fun x => { x with lastRefresh := c.result, refresh := .idle, refreshAgain := false }) t
        = modEntry e (refreshEnded c.result) t := fun t ht => modEntry_congr (by rw [refreshEnded, ← ht])
  unfold plainRefresh
  dsimp only
  rw [markFault_makeStale, publish_ungrouped, requestRefresh_fst, hended]
  split
  · rw [entry_modEntry_same]
    exact h
  · rw [refreshFailed, entry_marked, entry_modEntry_same]
    exact h

/-- Settles O25: the event by write-overtaken, then the request by refresh-again. -/
theorem refreshCompletionsPublishOrMark : Obligations.RefreshCompletionsPublishOrMark := by
  intro e c s s0 hs hfirst hc htag he
  have hsame : entry e s0 = entry e s ∧ s0.timebase = s.timebase := by
    obtain ⟨before, after, -, rfl, -⟩ := splitAtFirst_of_firstReport hfirst
    exact ⟨rfl, rfl⟩
  obtain ⟨hentry, htime⟩ := hsame
  have hrun : exec (.refreshCompletion e) s
      = .next (if (entry e s).writeOvertaken = true then overtakenRefresh e c s0 else plainRefresh e c s0) := by
    rw [← refreshCompletionEvent_enabled hfirst hc htag he]
    exact congrArg Host.Outcome.next (outOfReset_released hs)
  dsimp only
  rw [hrun]
  refine ⟨fun hclear hagain => ?_, fun hclear hagain => ?_, fun hset => ?_⟩
  · rw [hclear, if_neg Bool.false_ne_true, plainRefresh_eq c (hentry ▸ hclear), hentry, hagain, htime]
    rfl
  · rw [hclear, if_neg Bool.false_ne_true, plainRefresh_eq c (hentry ▸ hclear), hentry, hagain, htime]
    rfl
  · rw [hset, overtakenRefresh_eq, hentry]
    rfl

/-! ## Write completions (R55, R56, R59) -/

theorem writeCompletionEvent_enabled {e : EntryId} {c : Completion} {s s0 : State}
    (hfirst : FirstReport e (.completed c) s s0) (hc : c.ref = .write e) (he : (entry e s).enable = .enabled) :
    writeCompletionEvent e s = enabledWrite e c s0 := by
  obtain ⟨before, after, -, rfl, hsplit⟩ := splitAtFirst_of_firstReport hfirst
  unfold writeCompletionEvent
  simp only [hsplit, he, hc, if_true]

/-- Row OK of Table 3.2. -/
theorem writeEffects_ok {e : EntryId} {c : Completion} (s : State) (h : c.result = .ok) :
    writeEffects e c s
      = noted 0x002#13 (modEntry e (fun x =>
          { publishedEntry c.bytes s.timebase x with write := .done, lastWrite := c.result }) s) := by
  unfold writeEffects
  simp only [h, writeOutcome, publish_ungrouped, modEntry_modEntry, reduceCtorEq, if_true, if_false]
  rfl

/-- Row VERIFY_MISMATCH of Table 3.2. -/
theorem writeEffects_mismatch {e : EntryId} {c : Completion} (s : State) (h : c.result = .verifyMismatch) :
    writeEffects e c s
      = noted 0x006#13 (marked e (modEntry e (fun x =>
          { publishedEntry c.bytes s.timebase x with write := .mismatch, lastWrite := c.result }) s)) := by
  have hflags : ∀ f : BitVec 13, f ||| 0x004#13 ||| 0x002#13 = f ||| 0x006#13 := fun f => by
    rw [BitVec.or_assoc]
    rfl
  unfold writeEffects
  simp only [h, writeOutcome, publish_ungrouped, modEntry_modEntry, markFault_eq_marked, reduceCtorEq, if_true, if_false]
  rw [noted, ← hflags]
  rfl

/-- The other rows of Table 3.2. -/
theorem writeEffects_failed {e : EntryId} {c : Completion} (s : State) (hok : c.result ≠ .ok)
    (hmismatch : c.result ≠ .verifyMismatch) :
    writeEffects e c s
      = noted 0x002#13 (marked e (modEntry e (fun x => { x with write := .failed, lastWrite := c.result }) s)) := by
  have houtcome : writeOutcome c.result = .failed := by
    unfold writeOutcome
    split
    · next h => exact absurd h hok
    · next h => exact absurd h hmismatch
    · rfl
  unfold writeEffects
  simp only [houtcome, hmismatch, markFault_eq_marked, reduceCtorEq, if_true, if_false]
  rfl

/-- What the rows of Table 3.2 leave: all but the entries and the flags, and of the entry its configuration and its
refresh activity. -/
theorem writeEffects_frame (e : EntryId) (c : Completion) (s : State) :
    (∃ es fs, writeEffects e c s = { s with entries := es, flags := fs })
      ∧ (entry e (writeEffects e c s)).cfg = (entry e s).cfg
      ∧ (entry e (writeEffects e c s)).refresh = (entry e s).refresh := by
  have hnoted : ∀ bits t, entry e (noted bits t) = entry e t := fun _ _ => rfl
  by_cases hok : c.result = .ok
  · rw [writeEffects_ok s hok, hnoted, entry_modEntry_same]
    exact ⟨⟨_, _, rfl⟩, rfl, rfl⟩
  · by_cases hmismatch : c.result = .verifyMismatch
    · rw [writeEffects_mismatch s hmismatch, hnoted, entry_marked, entry_modEntry_same]
      exact ⟨⟨_, _, rfl⟩, rfl, rfl⟩
    · rw [writeEffects_failed s hok hmismatch, hnoted, entry_marked, entry_modEntry_same]
      exact ⟨⟨_, _, rfl⟩, rfl, rfl⟩

/-- The entry after the answer to the request that write-again makes (R56). -/
def writeAgainAnswered (e : EntryId) (a : Admission) (s : State) : State :=
  match a with
  | .admitted => modEntry e (fun x => { x with write := .pending }) (joined (entry e s).cfg.seg (writeJob e) s)
  | .full => marked e (modEntry e (fun x => { x with write := .failed }) s)
  | .down => marked e (modEntry e (fun x => { x with write := .failed, lastWrite := .segmentDown }) s)

theorem writeAgainRequest_eq (e : EntryId) (s : State) :
    writeAgainRequest e s
      = let s2 := modEntry e (fun x => { x with writeAgain := false }) s
        writeAgainAnswered e (answerOf (entry e s2).cfg.seg .urgent s2) s2 := by
  unfold writeAgainRequest
  dsimp only
  generalize modEntry e (fun x => { x with writeAgain := false }) s = s2
  rw [requestWrite_eq]
  cases answerOf (entry e s2).cfg.seg .urgent s2 <;> simp only [markFault_eq_marked] <;> rfl

/-- Settles O28: the row of Table 3.2, then write-again, then write-overtaken. -/
theorem writeCompletionsRecordTheOutcome : Obligations.WriteCompletionsRecordTheOutcome := by
  intro e c s s0 hs hfirst hc he x q run note s1
  have hsame : entry e s0 = x ∧ s0.timebase = s.timebase ∧ ∀ cls, answerOf q cls s0 = answerOf q cls s := by
    obtain ⟨before, after, -, rfl, -⟩ := splitAtFirst_of_firstReport hfirst
    exact ⟨rfl, rfl, fun _ => rfl⟩
  obtain ⟨hentry, htime, hanswer⟩ := hsame
  have hrun : run = .next (enabledWrite e c s0) := by
    rw [← writeCompletionEvent_enabled hfirst hc he]
    exact congrArg Host.Outcome.next (outOfReset_released hs)
  have hs1 : s1 = writeEffects e c s0 := by
    simp only [s1, ← htime]
    split
    · next h => exact (writeEffects_ok s0 h).symm
    · next h => exact (writeEffects_mismatch s0 h).symm
    · next hok hmismatch => exact (writeEffects_failed s0 hok hmismatch).symm
  obtain ⟨⟨es, fs, hframe⟩, hcfg, hrefresh⟩ := writeEffects_frame e c s0
  rw [← hs1, hentry] at hcfg hrefresh
  rw [hrun, enabledWrite, ← hs1, hrefresh, hentry]
  refine ⟨fun hclear hqueued => ?_, fun hclear hqueued => ?_, fun hset => ?_⟩
  · rw [hclear, hqueued]
    rfl
  · rw [hclear, if_neg Bool.false_ne_true, if_neg hqueued]
  · intro s2
    have hs2 : modEntry e (fun x => { x with writeAgain := false }) s1 = s2 := rfl
    have hseg : (entry e s2).cfg.seg = q := by
      rw [entry_modEntry_same]
      exact congrArg EntryConfig.seg hcfg
    have hanswer2 : answerOf q .urgent s2 = answerOf q .urgent s := by
      rw [← hanswer, ← hs2, hs1, hframe]
      rfl
    rw [hset, if_pos rfl, writeAgainRequest_eq]
    dsimp only
    rw [hs2, hseg, hanswer2]
    refine ⟨fun ha => ?_, fun ha => ?_, fun ha => ?_⟩
    · rw [ha, writeAgainAnswered, hseg]
    · rw [ha, writeAgainAnswered]
    · rw [ha, writeAgainAnswered]

end Sys2Proof.Proofs
end

section
/-! Delays of an active job (R53, R104) and the frames of jobs (R52, R54, R80, R87, R88). -/

namespace Sys2Proof.Proofs

open Sys2Proof.Machine Sys2Proof.Safety Sys2Proof.Spec

/-! ## Controllers and time -/

/-- Two changes of a controller that agree on it are one. -/
theorem modCtl_congr {q : SegId} {f g : Controller → Controller} {s : State} (h : f (ctl q s) = g (ctl q s)) :
    modCtl q f s = modCtl q g s := by
  rw [modCtl, modCtl, h]

/-- A change of the active job, where there is one. -/
theorem modActive_of_active {q : SegId} {a : ActiveJob} {s : State} (f : ActiveJob → ActiveJob)
    (ha : (ctl q s).active = some a) : modActive q f s = modCtl q (fun c => { c with active := some (f a) }) s :=
  modCtl_congr (by rw [ha]; rfl)

theorem elapsed_iff (since : Word) (ms : Nat) (s : State) : elapsed since ms s = true ↔ passed since ms s :=
  decide_eq_true_iff

theorem inForeignFrame_iff (c : Controller) : inForeignFrame c.state = true ↔ foreignNow c := by
  simp [inForeignFrame]

/-! ## Settle delay and backoff (R53, R104) -/

/-- A delay that ends makes the next attempt due; in FOREIGN and RECEIVING a busy wait begins (R98). -/
theorem delayEnds_eq {q : SegId} {a : ActiveJob} {s : State} (ha : (ctl q s).active = some a) :
    delayEnds q s
      = modCtl q (fun c =>
          { c with
            active := some { a with phase := .due }
            busySince := if foreignNow (ctl q s) then some s.timebase else (ctl q s).busySince }) s := by
  unfold delayEnds
  dsimp only
  rw [modActive_of_active _ ha]
  by_cases hforeign : foreignNow (ctl q s)
  · rw [if_pos ((inForeignFrame_iff _).2 hforeign), if_pos hforeign, beginBusyWait, modCtl_modCtl]
    exact modCtl_congr rfl
  · rw [if_neg (mt (inForeignFrame_iff _).1 hforeign), if_neg hforeign]
    exact modCtl_congr rfl

theorem backoffEndEvent_eq {q : SegId} {a : ActiveJob} {since : Word} {s : State} (ha : (ctl q s).active = some a)
    (hp : a.phase = .backoff since) :
    backoffEndEvent q s = if passed since (ctl q s).cfg.backoff.toNat s then delayEnds q s else s := by
  simp only [backoffEndEvent, ha, hp, elapsed_iff]

theorem settleEndEvent_eq {q : SegId} {a : ActiveJob} {e : EntryId} {since : Word} {s : State}
    (ha : (ctl q s).active = some a) (hp : a.phase = .settle since) (hr : a.job.ref = .write e) :
    settleEndEvent q s
      = if passed since (entry e s).cfg.settleDelay.toNat s then delayEnds q (verifyDue q s) else s := by
  simp only [settleEndEvent, ha, hp, settleDelayOf, hr, elapsed_iff]

/-- Settles O34: each event by whether the delay has passed, and the verify read that follows a settle delay. -/
theorem delaysEndOnTheTimebase : Obligations.DelaysEndOnTheTimebase := by
  intro q a since s hs ha
  dsimp only
  refine ⟨fun hp => ?_, fun e hp hr => ?_⟩
  · have hrun : exec (.backoffEnd q) s = .next (backoffEndEvent q s) :=
      congrArg Host.Outcome.next (outOfReset_released hs)
    rw [hrun, backoffEndEvent_eq ha hp]
    exact ⟨fun hpassed => by rw [if_pos hpassed, delayEnds_eq ha], fun hnot => by rw [if_neg hnot]⟩
  · have hrun : exec (.settleEnd q) s = .next (settleEndEvent q s) :=
      congrArg Host.Outcome.next (outOfReset_released hs)
    rw [hrun, settleEndEvent_eq ha hp hr]
    refine ⟨fun hpassed => ?_, fun hnot => by rw [if_neg hnot]⟩
    rw [if_pos hpassed, verifyDue, modActive_of_active _ ha, delayEnds_eq (by rw [ctl_modCtl_same]),
      modCtl_modCtl, ctl_modCtl_same]
    exact congrArg Host.Outcome.next (modCtl_congr rfl)

/-! ## Bytes of a frame (R80, R87) -/

theorem addressByte_w (a : DeviceAddr) : addressByte a .w = wByte a := by
  unfold addressByte wByte
  bv_omega

theorem addressByte_r (a : DeviceAddr) : addressByte a .r = rByte a := by
  have hbit : a.toNat <<< 1 ||| 1 = 2 * a.toNat + 1 := by
    rw [← Nat.shiftLeft_add_eq_or_of_lt (by decide), Nat.shiftLeft_eq, Nat.mul_comm]
  have hlt : 2 * a.toNat + 1 < 256 := by omega
  have hshift : (a.setWidth 8 <<< 1).toNat = a.toNat <<< 1 := by
    rw [BitVec.toNat_shiftLeft, BitVec.toNat_setWidth, Nat.shiftLeft_eq, Nat.shiftLeft_eq]
    omega
  refine BitVec.eq_of_toNat_eq ?_
  rw [addressByte, rByte, BitVec.toNat_or, hshift, BitVec.toNat_ofNat, BitVec.toNat_ofNat, Nat.mod_eq_of_lt hlt, ← hbit]

/-- The offset bytes: none at width 0, the low byte at width 1, else the high byte first. -/
theorem offsetBytes_eq (c : EntryConfig) :
    offsetBytes c
      = if c.offsetWidth = 0#2 then []
        else if c.offsetWidth = 1#2 then [c.registerOffset.extractLsb' 0 8]
        else [c.registerOffset.extractLsb' 8 8, c.registerOffset.extractLsb' 0 8] := by
  unfold offsetBytes
  rw [BitVec.setWidth_eq_extractLsb' (by decide)]
  split
  · next h => rw [if_pos (BitVec.eq_of_toNat_eq h)]
  · next h =>
    have hone : c.offsetWidth = 1#2 := BitVec.eq_of_toNat_eq h
    rw [if_neg (by rw [hone]; decide), if_pos hone]
  · next hzero hone => rw [if_neg fun h => hzero (by rw [h]; rfl), if_neg fun h => hone (by rw [h]; rfl)]

/-! ## Frames (R52, R54, R87, R88) -/

theorem readFrame_eq (c : EntryConfig) :
    readFrame c
      = if c.offsetWidth = 0#2 then
          Element.address (rByte c.address) false
            :: (List.replicate c.length.toNat Element.readData ++ if c.checkCode = true then [Element.readCheck] else [])
        else
          Element.address (wByte c.address) false :: (offsetBytes c).map Element.offset
            ++ Element.address (rByte c.address) true
              :: (List.replicate c.length.toNat Element.readData
                ++ if c.checkCode = true then [Element.readCheck] else []) := by
  unfold readFrame
  rw [addressByte_w, addressByte_r]
  split <;> simp only [List.cons_append, List.nil_append, List.append_assoc]

/-- The frame of an entry's REFRESH job, and the verify read of its WRITE job. -/
theorem jobFrame_read {a : ActiveJob} {e : EntryId}
    (h : (a.job.ref = .refresh e ∧ a.frame = .refreshRead) ∨ (a.job.ref = .write e ∧ a.frame = .verifyRead))
    (tx : Vector Byte 32) (s : State) : jobFrame a tx s = readFrame (entry e s).cfg := by
  rcases h with ⟨hr, hf⟩ | ⟨hr, hf⟩ <;> simp only [jobFrame, hr, hf]

theorem jobFrame_write {a : ActiveJob} {e : EntryId} (hr : a.job.ref = .write e) (hf : a.frame = .writeFrame)
    (tx : Vector Byte 32) (s : State) :
    jobFrame a tx s = writeFrame (entry e s).cfg (tx.toList.take (entry e s).cfg.length.toNat) := by
  simp only [jobFrame, hr, hf, firstBytes]

theorem jobFrame_slot {a : ActiveJob} {k : SlotId} (hr : a.job.ref = .direct k) (tx : Vector Byte 32) (s : State) :
    jobFrame a tx s = slotFrame (slot k s) (tx.toList.take (slotSendCount (slot k s))) := by
  simp only [jobFrame, hr, firstBytes]

/-! ### The frames of slots by kind (Table 5.3) -/

theorem slotFrame_quick {k : Slot} (h : k.kind = 0#3) (bytes : List Byte) :
    slotFrame k bytes = [Element.address (wByte k.address) false] := by
  rw [slotFrame, h, addressByte_w]
  rfl

theorem slotFrame_write {k : Slot} (h : k.kind = 1#3) (bytes : List Byte) :
    slotFrame k bytes
      = Element.address (wByte k.address) false :: bytes.map Element.sendData
          ++ if k.checkOption = true then [Element.sendCheck] else [] := by
  rw [slotFrame, h, addressByte_w]
  rfl

theorem slotFrame_read {k : Slot} (h : k.kind = 2#3) (bytes : List Byte) :
    slotFrame k bytes
      = Element.address (rByte k.address) false
          :: (List.replicate k.readCount.toNat Element.readData
            ++ if k.checkOption = true then [Element.readCheck] else []) := by
  rw [slotFrame, h, addressByte_r]
  rfl

theorem slotFrame_writeRead {k : Slot} (h : k.kind = 3#3) (bytes : List Byte) :
    slotFrame k bytes
      = Element.address (wByte k.address) false :: bytes.map Element.sendData
          ++ Element.address (rByte k.address) true
            :: (List.replicate k.readCount.toNat Element.readData
              ++ if k.checkOption = true then [Element.readCheck] else []) := by
  rw [slotFrame, h, addressByte_w, addressByte_r, ← List.cons_append, ← List.append_assoc]
  rfl

/-- WRITE and WRITE_READ send the slot's write count of bytes (Table 7.2). -/
theorem slotSendCount_of_writes {k : Slot} (h : k.kind = 1#3 ∨ k.kind = 3#3) :
    slotSendCount k = k.writeCount.toNat := by
  rcases h with h | h <;> rw [slotSendCount, h] <;> rfl

/-- Settles O37: the frames of entries by offset width, those of slots by kind. -/
theorem framesOfEveryJob : Obligations.FramesOfEveryJob := by
  intro a tx s
  refine ⟨fun e h => ?_, fun e hr hf => ?_, fun k hr hf => ?_⟩
  · dsimp only
    rw [jobFrame_read h, readFrame_eq, offsetBytes_eq]
    by_cases hzero : (entry e s).cfg.offsetWidth = 0#2
    · rw [if_pos hzero, if_pos hzero]
    · rw [if_neg hzero, if_neg hzero, if_neg hzero]
      split <;> rfl
  · dsimp only
    rw [jobFrame_write hr hf, writeFrame, addressByte_w, offsetBytes_eq, apply_ite (List.map Element.offset),
      apply_ite (List.map Element.offset)]
    rfl
  · dsimp only
    rw [jobFrame_slot hr]
    refine ⟨fun hk => ?_, fun hk => ?_, fun hk => ?_, fun hk => ?_⟩
    · rw [slotFrame_quick hk]
    · rw [slotFrame_write hk, slotSendCount_of_writes (.inl hk)]
    · rw [slotFrame_read hk]
    · rw [slotFrame_writeRead hk, slotSendCount_of_writes (.inr hk)]

end Sys2Proof.Proofs
end

section
/-! The end of the part's own frame (R52 to R54, R77, R84, R85, R102, R113): its result, and what follows it. -/

namespace Sys2Proof.Proofs

open Sys2Proof.Machine Sys2Proof.Safety Sys2Proof.Spec

/-! ## The frame as the wire has given it -/

theorem holdExpired_iff (q : SegId) (s : State) : holdExpired (ctl q s) s = true ↔ HeldTooLong q s := by
  unfold holdExpired HeldTooLong
  cases (ctl q s).holdSince with
  | none => simp
  | some since => simp [elapsed]

theorem holdExpired_of_not {q : SegId} {s : State} (h : ¬ HeldTooLong q s) : holdExpired (ctl q s) s = false :=
  Bool.eq_false_iff.2 (mt (holdExpired_iff q s).1 h)

theorem frameElements_of_active {q : SegId} {a : ActiveJob} {s : State} (ha : (ctl q s).active = some a) :
    frameElements q s = jobFrame a (ctl q s).tx s := by
  rw [frameElements, ha]

theorem frameToEnd_eq (q : SegId) (s : State) : frameToEnd q s = upToEnd q (frameElements q s) s := by
  unfold frameToEnd upToEnd
  cases (ctl q s).earlyEnd <;> rfl

theorem frameSoFar_of_active {q : SegId} {a : ActiveJob} {s : State} (wire : Traffic)
    (ha : (ctl q s).active = some a) : frameSoFar q wire s = runOf q a wire s := by
  rw [frameSoFar, frameToEnd_eq, frameElements_of_active ha]
  rfl

/-- The frame ends with its own last element: no early end comes before that (R85). -/
def OwnEnd (q : SegId) (a : ActiveJob) (s : State) : Prop :=
  upToEnd q (jobFrame a (ctl q s).tx s) s = jobFrame a (ctl q s).tx s

section
variable {q : SegId} {a : ActiveJob} {r : FrameRun} {s : State}

theorem ownResult_of_cut {e : Element} (h : r.progress = .cut e) : ownResult q r s = none := by
  rw [ownResult, h, frameResult, h]

theorem ownResult_of_refused {x : Result} (h : r.progress = .refused x) : ownResult q r s = some x := by
  rw [ownResult, h, frameResult, h]

theorem ownResult_of_whole {b : Bool} (ha : (ctl q s).active = some a) (h : r.progress = .whole b)
    (hend : OwnEnd q a s) : ownResult q r s = some (if b = true then .ok else .checkMismatch) := by
  have hend' : frameToEnd q s = frameElements q s := by
    rw [frameToEnd_eq, frameElements_of_active ha]
    exact hend
  rw [ownResult, h, frameResult, h]
  dsimp only
  rw [if_pos hend']
  cases b <;> rfl

theorem ownResult_of_whole_early {b : Bool} (ha : (ctl q s).active = some a) (h : r.progress = .whole b)
    (hend : ¬ OwnEnd q a s) : ownResult q r s = none := by
  have hend' : frameToEnd q s ≠ frameElements q s := by
    rw [frameToEnd_eq, frameElements_of_active ha]
    exact hend
  rw [ownResult, h]
  exact if_neg hend'

/-- A verify read is compared with the bytes sent (R54). -/
theorem comparedResult_verifyRead {e : EntryId} (hr : a.job.ref = .write e) (hf : a.frame = .verifyRead)
    (tx : Vector Byte 32) :
    comparedResult a r tx s
      = if r.received = tx.toList.take (entry e s).cfg.length.toNat then .ok else .verifyMismatch := by
  simp only [comparedResult, hr, hf]
  rfl

/-- No other frame is compared. -/
theorem comparedResult_other (h : ∀ e, a.job.ref = .write e → a.frame ≠ .verifyRead) (tx : Vector Byte 32) :
    comparedResult a r tx s = .ok := by
  unfold comparedResult
  split
  · next e hr hf => exact absurd hf (h e hr)
  · rfl

end

/-! ## What follows an attempt result (R102) -/

theorem streakAfter_eq_newStreak (r : Result) (n : BitVec 4) : streakAfter r n = newStreak r n := by
  have hsat : satInc n = if n = 15#4 then 15#4 else n + 1#4 := by
    have hall : BitVec.allOnes 4 = 15#4 := by decide
    unfold satInc
    rw [hall]
    split
    · next h => exact h
    · rfl
  unfold streakAfter newStreak
  rw [hsat]
  cases r <;> rfl

/-- What follows a result is taken in the state in which the result has been recorded. -/
theorem takeResult_congr {q : SegId} {o : FrameOutcome} {f g : State → State} {s : State}
    (h : f (resultTaken q o.result s) = g (resultTaken q o.result s)) : takeResult q o f s = takeResult q o g s := by
  simp only [resultTaken, ← streakAfter_eq_newStreak] at h
  unfold takeResult
  dsimp only
  rw [h]

section
variable {q : SegId} {a : ActiveJob} {o : FrameOutcome} {s : State}

theorem settleAfter_none
    (h : ∀ e, ¬ (a.job.ref = .write e ∧ a.frame = .writeFrame ∧ (entry e s).cfg.verify = true)) :
    settleAfter a s = none := by
  unfold settleAfter
  split
  · next e hr hf => exact if_neg fun hv => h e ⟨hr, hf, hv⟩
  · rfl

theorem settleAfter_some {e : EntryId} (hr : a.job.ref = .write e) (hf : a.frame = .writeFrame)
    (hv : (entry e s).cfg.verify = true) : settleAfter a s = some (entry e s).cfg.settleDelay := by
  simp only [settleAfter, hr, hf, hv, if_true]

theorem continueAfter_ok (ho : o.result = .ok) (h : settleAfter a s = none) :
    continueAfter q a o s = completes q o s := by
  rw [continueAfter, ho]
  dsimp only
  rw [h]
  rfl

theorem continueAfter_checkMismatch (ho : o.result = .checkMismatch) : continueAfter q a o s = retryOrComplete q o s := by
  rw [continueAfter, ho]

theorem continueAfter_final (hok : o.result ≠ .ok) (hcheck : o.result ≠ .checkMismatch) :
    continueAfter q a o s = completes q o s := by
  unfold continueAfter
  split
  · next h => exact absurd h hok
  · next h => exact absurd h hcheck
  · rfl

theorem continueAfter_verified {delay : Byte} (ho : o.result = .ok) (h : settleAfter a s = some delay) :
    continueAfter q a o s
      = if (ctl q s).state = .stopping then completes q { o with result := .flushed } s else beginSettle q delay o s := by
  rw [continueAfter, ho]
  dsimp only
  rw [h]
  rfl

/-- A settle delay begins (R53). -/
theorem beginSettle_of_delay {delay : Byte} (ha : (ctl q s).active = some a) (hd : delay ≠ 0#8) :
    beginSettle q delay o s
      = modCtl q (fun c =>
          { c with state := .settle, active := some { a with phase := .settle s.timebase, last := some o } }) s := by
  unfold beginSettle
  dsimp only
  rw [if_neg hd, modActive_of_active _ ha, modCtl_modCtl, modActive_of_active _ (by rw [ctl_modCtl_same]), modCtl_modCtl]
  exact modCtl_congr rfl

theorem beginFrame_eq_started (q : SegId) (s : State) : beginFrame q s = started q s := by
  rw [beginFrame, modActive, modCtl_modCtl]
  exact modCtl_congr rfl

/-- A settle delay of 0: the verify read is started in the same event (R53; log entry 11). -/
theorem beginSettle_of_no_delay (ha : (ctl q s).active = some a) (hstart : a.started = true) :
    beginSettle q 0#8 o s
      = started q (modCtl q (fun c =>
          { c with
            active := some { a with
              frame := .verifyRead, last := some o, phase := .due, job := { a.job with attempts := 0#3 } } }) s) := by
  unfold beginSettle
  dsimp only
  rw [if_pos rfl, modActive_of_active _ ha, verifyDue, modActive_of_active _ (by rw [ctl_modCtl_same]), modCtl_modCtl]
  unfold beginDue
  rw [ctl_modCtl_same]
  dsimp only
  rw [hstart, if_pos rfl, beginFrame_eq_started]
  exact congrArg (started q) (modCtl_congr rfl)

end

/-! ## The event FRAME_END -/

section
variable {q : SegId} {a : ActiveJob} {since : Word} {s : State} (hs : s.inReset = false)
  (hown : (ctl q s).own = .frame since) (ha : (ctl q s).active = some a) (hheld : ¬ HeldTooLong q s)
include hs hown ha hheld

theorem exec_frameEnd_none {wire : Traffic} (h : ownResult q (runOf q a wire s) s = none) :
    exec (.frameEnd q wire) s = .next s := by
  refine congrArg Host.Outcome.next ((outOfReset_released hs).trans ?_)
  simp only [frameEndEvent, hown, holdExpired_of_not hheld, frameSoFar_of_active wire ha, h]
  rfl

/-- The frame ends with a result of its own: it is closed, the result is taken, and what follows it. -/
theorem exec_frameEnd_some {wire : Traffic} {x y : Result} {goOn : State → State}
    (h : ownResult q (runOf q a wire s) s = some x)
    (hy : (if x = .ok then comparedResult a (runOf q a wire s) (ctl q s).tx s else x) = y)
    (hgoOn : let t := resultTaken q y (closed q (runOf q a wire s) s)
      continueAfter q a (outcomeOf (runOf q a wire s) y) t = goOn t) :
    exec (.frameEnd q wire) s
      = .next (takeResult q (outcomeOf (runOf q a wire s) y) goOn (closed q (runOf q a wire s) s)) := by
  refine congrArg Host.Outcome.next ((outOfReset_released hs).trans (Eq.trans ?_ (takeResult_congr hgoOn)))
  simp only [frameEndEvent, hown, holdExpired_of_not hheld, frameSoFar_of_active wire ha, h, ha, hy]
  rfl

end

/-- What the controller keeps of its job and its state while the frame is closed and its result recorded. -/
theorem ctl_resultTaken_closed (q : SegId) (x : Result) (r : FrameRun) (s : State) :
    (ctl q (resultTaken q x (closed q r s))).active = (ctl q s).active
      ∧ (ctl q (resultTaken q x (closed q r s))).state = (ctl q s).state := by
  rw [resultTaken, closed, ctl_modCtl_same, ctl_modCtl_same]
  exact ⟨rfl, rfl⟩

/-- A write frame with verify on that ended OK: FLUSHED in STOPPING (R113), else the settle delay (R53). -/
theorem continueAfter_verifiedWrite {q : SegId} {a : ActiveJob} {e : EntryId} (r : FrameRun) {s t : State}
    (hr : a.job.ref = .write e) (hf : a.frame = .writeFrame) (hv : (entry e s).cfg.verify = true)
    (ht : resultTaken q .ok (closed q r s) = t) :
    continueAfter q a (outcomeOf r .ok) t
      = if (ctl q s).state = .stopping then completes q (outcomeOf r .flushed) t
        else beginSettle q (entry e s).cfg.settleDelay (outcomeOf r .ok) t := by
  have hstate : (ctl q t).state = (ctl q s).state := ht ▸ (ctl_resultTaken_closed q .ok r s).2
  have hsettle : settleAfter a t = some (entry e s).cfg.settleDelay := by
    subst ht
    exact settleAfter_some hr hf hv
  rw [continueAfter_verified rfl hsettle, hstate]
  rfl

/-- Settles O39: the frame's own result by its progress, then what follows that result. -/
theorem frameEndsAreClassified : Obligations.FrameEndsAreClassified := by
  intro q wire a since s hs hown ha hheld
  dsimp only
  have htaken := @exec_frameEnd_some q a since s hs hown ha hheld wire
  have hnone := @exec_frameEnd_none q a since s hs hown ha hheld wire
  generalize runOf q a wire s = r at *
  have hok : r.progress = .whole true → OwnEnd q a s → ownResult q r s = some .ok := ownResult_of_whole ha
  have hwritten : a.frame = .writeFrame → comparedResult a r (ctl q s).tx s = .ok := fun hf =>
    comparedResult_other (fun _ _ hread => by rw [hf] at hread; exact nomatch hread) _
  have hactive : (ctl q (resultTaken q .ok (closed q r s))).active = some a :=
    (ctl_resultTaken_closed q .ok r s).1.trans ha
  refine ⟨fun x hx hlist => ?_, fun hwhole hend => ?_, fun ⟨hwhole, hend⟩ hplain hread => ?_,
    fun e ⟨hwhole, hend⟩ hr hf => ?_, fun e ⟨hwhole, hend⟩ ⟨hr, hf, hv⟩ hstop => ?_,
    fun e ⟨hwhole, hend⟩ ⟨hr, hf, hv⟩ hstop hdelay => ?_,
    fun e ⟨hwhole, hend⟩ ⟨hr, hf, hv⟩ hstop hdelay hstart => ?_, fun h => ?_⟩
  · have hfinal : x ≠ .ok ∧ x ≠ .checkMismatch := by rcases hlist with rfl | rfl | rfl <;> decide
    exact htaken (ownResult_of_refused hx) (if_neg hfinal.1) (continueAfter_final hfinal.1 hfinal.2)
  · exact htaken (ownResult_of_whole ha hwhole hend) rfl (continueAfter_checkMismatch rfl)
  · exact htaken (hok hwhole hend) (comparedResult_other hread _) (continueAfter_ok rfl (settleAfter_none hplain))
  · refine htaken (hok hwhole hend) (comparedResult_verifyRead hr hf _) ?_
    split
    · refine continueAfter_ok rfl (settleAfter_none fun _ ⟨_, hwrite, _⟩ => ?_)
      rw [hf] at hwrite
      exact nomatch hwrite
    · exact continueAfter_final (fun h => nomatch h) (fun h => nomatch h)
  · refine htaken (hok hwhole hend) (hwritten hf) ?_
    exact (continueAfter_verifiedWrite r hr hf hv rfl).trans (if_pos hstop)
  · refine htaken (hok hwhole hend) (hwritten hf) ?_
    refine (continueAfter_verifiedWrite r hr hf hv rfl).trans ?_
    rw [if_neg hstop, beginSettle_of_delay hactive hdelay]
    rfl
  · refine htaken (hok hwhole hend) (hwritten hf) ?_
    refine (continueAfter_verifiedWrite r hr hf hv rfl).trans ?_
    rw [if_neg hstop, hdelay, beginSettle_of_no_delay hactive hstart]
  · rcases h with ⟨x, hx⟩ | ⟨⟨b, hb⟩, hend⟩
    · exact hnone (ownResult_of_cut hx)
    · exact hnone (ownResult_of_whole_early ha hb hend)

end Sys2Proof.Proofs
end

section
/-! What a step of the part keeps of its Segment Queues and controllers (R60, R70, Table 6.1): the two invariants side by
side, for operations of one segment and for those of the whole part. -/

namespace Sys2Proof.Proofs

open Sys2Proof.Machine Sys2Proof.Safety Sys2Proof.Spec

/-! ## Operations of the whole part -/

/-- An operation that keeps the bounds of the queues, and what every controller's state allows. -/
structure PartStep (s t : State) : Prop where
  bounded : QueuesBounded s → QueuesBounded t
  controllers : ControllersOk s → ControllersOk t

namespace PartStep

theorem refl (s : State) : PartStep s s := ⟨id, id⟩

theorem trans {s t u : State} (h : PartStep s t) (k : PartStep t u) : PartStep s u :=
  ⟨k.bounded ∘ h.bounded, k.controllers ∘ h.controllers⟩

/-- An operation of the Mirror Table or the Refresh Scheduler. -/
theorem of_mirror {s t : State} (h : MirrorStep s t) : PartStep s t := ⟨h.bounded, h.controllers⟩

/-- An operation that leaves queues, controllers and the course of a soft reset. -/
theorem of_same {s t : State} (hqueues : t.queues = s.queues) (hctls : t.ctls = s.ctls)
    (hresetting : t.resetting = s.resetting) (hundelivered : t.undelivered = s.undelivered) : PartStep s t := by
  have hqueue (q : SegId) : queue q t = queue q s := congrArg (getAt · q) hqueues
  have hctl (q : SegId) : ctl q t = ctl q s := congrArg (getAt · q) hctls
  refine ⟨fun h q => ?_, fun h q => ?_⟩
  · rw [hqueue]
    exact h q
  · rw [hqueue, hctl, awaits_congr hresetting hundelivered]
    exact h q

end PartStep

/-! ## Operations of one segment -/

/-- An operation of one segment that leaves its controller as its state allows (Table 6.1). -/
structure SegStep (seg : SegId) (s t : State) : Prop where
  line : LineStep seg s t
  ok : SegOk seg s → SegOk seg t

namespace SegStep
variable {seg : SegId} {s t u : State}

theorem refl (seg : SegId) (s : State) : SegStep seg s s := ⟨.refl seg s, id⟩

theorem trans (h : SegStep seg s t) (k : SegStep seg t u) : SegStep seg s u := ⟨h.line.trans k.line, k.ok ∘ h.ok⟩

/-- The other segments are as they were, and so is what a soft reset has still to reach. -/
theorem part (h : SegStep seg s t) : PartStep s t := by
  refine ⟨h.line.bounded, fun hs q => ?_⟩
  by_cases hq : q = seg
  · subst hq
    exact h.ok (hs q)
  · rw [h.line.ctlNe q hq, h.line.queueNe q hq, h.line.awaits]
    exact hs q

theorem of_same (h : LineStep seg s t) (hctl : ctl seg t = ctl seg s) (hqueue : queue seg t = queue seg s) :
    SegStep seg s t := by
  refine ⟨h, fun hs => ?_⟩
  rw [SegOk, hctl, hqueue, h.awaits]
  exact hs

/-- A change of the controller alone. -/
theorem modCtl {f : Controller → Controller}
    (h : ∀ w q, ControllerOk w (ctl seg s) q → ControllerOk w (f (ctl seg s)) q) : SegStep seg s (modCtl seg f s) := by
  refine ⟨modCtl_line seg f s, fun hs => ?_⟩
  rw [SegOk, ctl_modCtl_same, queue_modCtl, (modCtl_line seg f s).awaits]
  exact h _ _ hs

end SegStep

/-! ### What a controller's state says of its job and its lines -/

/-- An online controller outside ACTIVE with nothing of its own on the wire. -/
theorem controllerOk_of_quiet {w : Bool} {c : Controller} {q : SegQueue} (honline : refusesJobs c.state = false)
    (hactive : c.state ≠ .active) (hquiet : c.own = .quiet) (hcalm : c.recovery = none) : ControllerOk w c q := by
  refine ⟨fun hr => ?_, fun ho => ?_, fun ha => absurd ha hactive, fun hown => absurd hquiet hown,
    fun hr => absurd hcalm hr⟩
  · rw [honline] at hr
    cases hr
  · rcases ho with e | e <;> rw [e] at honline <;> cases honline

section
variable {seg : SegId} {s : State} (h : SegOk seg s)
include h

theorem quiet_of_segOk (hactive : (ctl seg s).state ≠ .active) (hstopping : (ctl seg s).state ≠ .stopping) :
    (ctl seg s).own = .quiet := by
  obtain ⟨-, -, -, hwire, -⟩ := h
  by_contra hown
  exact (hwire hown).elim hactive hstopping

theorem calm_of_segOk (hstate : (ctl seg s).state ≠ .recovering) : (ctl seg s).recovery = none := by
  obtain ⟨-, -, -, -, hrecovery⟩ := h
  by_contra hne
  exact hstate (hrecovery hne)

/-- With something of its own on the wire the part has no recovery. -/
theorem calm_of_onWire (hown : (ctl seg s).own ≠ .quiet) : (ctl seg s).recovery = none := by
  obtain ⟨-, -, -, hwire, -⟩ := id h
  refine calm_of_segOk h fun hstate => ?_
  rcases hwire hown with e | e <;> rw [e] at hstate <;> cases hstate

theorem recovering_of_recovery {r : Recovery} (hr : (ctl seg s).recovery = some r) : Recovering (ctl seg s) := by
  have hstate : (ctl seg s).state = .recovering := by
    obtain ⟨-, -, -, -, hrecovery⟩ := h
    exact hrecovery (by rw [hr]; exact Option.some_ne_none r)
  exact ⟨hstate, quiet_of_segOk h (by rw [hstate]; decide) (by rw [hstate]; decide)⟩

/-- A frame on the wire that belongs to no job is one of STOPPING (R116). -/
theorem stopping_of_frame_without_job (hown : (ctl seg s).own ≠ .quiet) (hjob : (ctl seg s).active = none) :
    (ctl seg s).state = .stopping := by
  obtain ⟨-, -, hactive, hwire, -⟩ := h
  exact (hwire hown).resolve_left fun hstate => hactive hstate hjob

theorem endStopping_ok_of_stopping (hstate : (ctl seg s).state = .stopping) : SegOk seg (endStopping seg s) := by
  obtain ⟨hqueue, -, -, -, -⟩ := h
  refine endStopping_ok ((hqueue ?_).imp And.right id)
  rw [hstate]
  rfl

end

/-! ### The shared operations of a controller -/

theorem modActive_segStep (seg : SegId) (f : ActiveJob → ActiveJob) (s : State) : SegStep seg s (modActive seg f s) := by
  refine SegStep.modCtl fun w q ⟨hqueue, hjob, hactive, hwire, hrecovery⟩ =>
    ⟨hqueue, fun ho => ?_, fun ha => ?_, hwire, hrecovery⟩
  · simp [hjob ho]
  · simpa using hactive ha

theorem beginBusyWait_segStep (seg : SegId) (s : State) : SegStep seg s (beginBusyWait seg s) :=
  SegStep.modCtl fun _ _ h => h

theorem countedResult_segStep (seg : SegId) (r : Result) (s : State) : SegStep seg s (countedResult seg r s) :=
  SegStep.modCtl fun _ _ h => h

/-- An attempt result, where what goes on after it is a step of the segment. -/
theorem takeResult_segStep {seg : SegId} {o : FrameOutcome} {goOn : State → State} {s : State}
    (h : SegStep seg (countedResult seg o.result s) (goOn (countedResult seg o.result s))) :
    SegStep seg s (takeResult seg o goOn s) :=
  ⟨takeResult_line h.line, fun hs => takeResult_ok (h.ok ((countedResult_segStep seg o.result s).ok hs))⟩

/-- The job completes and the controller goes where R107 says. -/
theorem afterCompletion_completeJob_segStep (seg : SegId) (o : FrameOutcome) (used : BitVec 4) (s : State) :
    SegStep seg s (afterCompletion seg (completeJob seg o used s)) := by
  refine ⟨(completeJob_line seg o used s).trans (afterCompletion_line seg _), fun h => ?_⟩
  obtain ⟨hloose, hjob⟩ := loose_completeJob o used h.loose
  exact afterCompletion_ok hloose hjob

theorem afterCompletion_completeAttempt_segStep (seg : SegId) (o : FrameOutcome) (s : State) :
    SegStep seg s (afterCompletion seg (completeAttempt seg o s)) := by
  refine ⟨(completeAttempt_line seg o s).trans (afterCompletion_line seg _), fun h => ?_⟩
  obtain ⟨hloose, hjob⟩ := loose_completeAttempt o h.loose
  exact afterCompletion_ok hloose hjob

theorem reportStart_segStep (seg : SegId) (j : Job) (s : State) : SegStep seg s (reportStart seg j s) := by
  unfold reportStart
  split
  · exact (SegStep.of_same (modSlot_line seg _ _ s) rfl rfl).trans (SegStep.modCtl fun _ _ h => h)
  · exact SegStep.of_same (send_line seg _ s) rfl rfl
  · exact SegStep.of_same (send_line seg _ s) rfl rfl

/-- A selection by a controller that is online (R68). -/
theorem select_ok {seg : SegId} {s : State} (h : SegOk seg s) (honline : refusesJobs (ctl seg s).state = false) :
    SegOk seg (select seg s) := by
  unfold select
  split
  · exact h
  · next j q _ =>
    refine (reportStart_segStep seg j _).ok ?_
    obtain ⟨-, -, -, hwire, hrecovery⟩ := h
    rw [SegOk, ctl_modCtl_same]
    refine ⟨fun hr => ?_, fun ho => ?_, fun _ => Option.some_ne_none _, hwire, hrecovery⟩
    · rw [ctl_setQueue, honline] at hr
      cases hr
    · rcases ho with e | e <;> rw [ctl_setQueue] at e <;> rw [e] at honline <;> cases honline

/-- A slot's abort request (R115). -/
theorem abortRequest_segStep (seg : SegId) (k : SlotId) (s : State) : SegStep seg s (abortRequest seg k s) := by
  unfold abortRequest
  split
  · exact .refl seg s
  · split
    · split
      · exact (SegStep.modCtl fun _ _ h => h).trans (modActive_segStep seg _ _)
      · exact .refl seg s
      · exact afterCompletion_completeJob_segStep seg _ _ s
      · exact afterCompletion_completeJob_segStep seg _ _ s
      · exact afterCompletion_completeJob_segStep seg _ _ s
    · exact .refl seg s

end Sys2Proof.Proofs
end

section
/-! The events of a segment from the selection of a job to the end of its frame (R68, R84, R85, R97, R101, R106): each is a
step of that segment. -/

namespace Sys2Proof.Proofs

open Sys2Proof.Machine Sys2Proof.Safety Sys2Proof.Spec

/-! ## Selection, delays and the start of attempts -/

theorem selectionEvent_segStep (seg : SegId) (s : State) : SegStep seg s (selectionEvent seg s) := by
  unfold selectionEvent
  split
  · next hidle => exact ⟨select_line seg s, fun h => select_ok h (by rw [hidle.1]; rfl)⟩
  · exact .refl seg s

/-- A controller that may begin an attempt holds a job, and is in none of the states of a recovery (R97). -/
theorem of_mayBegin {c : Controller} (h : mayBegin c = true) : c.active ≠ none ∧ c.state ≠ .recovering := by
  unfold mayBegin at h
  constructor
  · intro hnone
    simp [hnone] at h
  · intro hstate
    simp [hstate] at h

theorem attemptBeginEvent_segStep (seg : SegId) (lines : Lines) (sense : RecoverySense) (s : State) :
    SegStep seg s (attemptBeginEvent seg lines sense s) := by
  unfold attemptBeginEvent
  split
  · next hbegin =>
    obtain ⟨hjob, hstate⟩ := of_mayBegin hbegin
    exact ⟨checkLines_line seg lines sense s, fun h => checkLines_ok lines sense hjob (calm_of_segOk h hstate)⟩
  · exact .refl seg s

theorem clockLineSensedHighEvent_segStep (seg : SegId) (sda : Bool) (sense : RecoverySense) (s : State) :
    SegStep seg s (clockLineSensedHighEvent seg sda sense s) := by
  unfold clockLineSensedHighEvent
  split
  · split
    · next hstate =>
      refine ⟨checkLines_line seg _ sense s, fun h => ?_⟩
      obtain ⟨-, -, hactive, -, -⟩ := id h
      exact checkLines_ok _ sense (hactive hstate.1) (calm_of_segOk h (by rw [hstate.1]; decide))
    · exact .refl seg s
  all_goals exact .refl seg s

theorem delayEnds_segStep (seg : SegId) (s : State) : SegStep seg s (delayEnds seg s) := by
  unfold delayEnds
  dsimp only
  split
  · exact (modActive_segStep seg _ s).trans (beginBusyWait_segStep seg _)
  · exact modActive_segStep seg _ s

theorem settleEndEvent_segStep (seg : SegId) (s : State) : SegStep seg s (settleEndEvent seg s) := by
  unfold settleEndEvent
  split
  · exact .refl seg s
  · split
    · split
      · exact (modActive_segStep seg _ s).trans (delayEnds_segStep seg _)
      · exact .refl seg s
    all_goals exact .refl seg s

theorem backoffEndEvent_segStep (seg : SegId) (s : State) : SegStep seg s (backoffEndEvent seg s) := by
  unfold backoffEndEvent
  split
  · exact .refl seg s
  · split
    · split
      · exact delayEnds_segStep seg s
      · exact .refl seg s
    all_goals exact .refl seg s

/-! ## The end of the part's own frame -/

/-- A frame of the part ends without a job: STOPPING ends with it (R116). -/
theorem endStopping_segStep_of_frame {seg : SegId} {s : State} {since : Word} (hown : (ctl seg s).own = .frame since)
    (hjob : (ctl seg s).active = none) : SegStep seg s (endStopping seg s) :=
  ⟨endStopping_line seg s, fun h =>
    endStopping_ok_of_stopping h (stopping_of_frame_without_job h (by rw [hown]; exact OwnWire.noConfusion) hjob)⟩

theorem beginSettle_line (seg : SegId) (delay : Byte) (o : FrameOutcome) (s : State) :
    LineStep seg s (beginSettle seg delay o s) := by
  unfold beginSettle
  dsimp only
  split
  · exact ((modActive_line seg _ s).trans (modActive_line seg _ _)).trans (beginDue_line seg _)
  · exact ((modActive_line seg _ s).trans (modCtl_line seg _ _)).trans (modActive_line seg _ _)

theorem holding_modActive {seg : SegId} {f : ActiveJob → ActiveJob} {s : State} (h : Holding (ctl seg s)) :
    Holding (ctl seg (modActive seg f s)) := by
  obtain ⟨honline, hjob, hquiet, hcalm⟩ := h
  rw [modActive, ctl_modCtl_same]
  exact ⟨honline, by simpa using hjob, hquiet, hcalm⟩

theorem beginSettle_ok {seg : SegId} (delay : Byte) (o : FrameOutcome) {s : State} (h : Holding (ctl seg s)) :
    SegOk seg (beginSettle seg delay o s) := by
  unfold beginSettle
  dsimp only
  split
  · exact beginDue_ok (holding_modActive (holding_modActive h))
  · refine (holding_modActive ?_).ok
    obtain ⟨-, hjob, hquiet, hcalm⟩ := holding_modActive (f := fun a => { a with last := some o }) h
    rw [ctl_modCtl_same]
    exact ⟨rfl, hjob, hquiet, hcalm⟩

/-- A controller with a job and nothing on the wire can go on with it outside STOPPING. -/
theorem holding_of_segOk {seg : SegId} {s : State} (h : SegOk seg s) (hjob : (ctl seg s).active ≠ none)
    (hstop : (ctl seg s).state ≠ .stopping) (hquiet : (ctl seg s).own = .quiet) (hcalm : (ctl seg s).recovery = none) :
    Holding (ctl seg s) := by
  obtain ⟨-, hoff, -, -, -⟩ := h
  refine ⟨?_, hjob, hquiet, hcalm⟩
  cases hstate : (ctl seg s).state
  case offline => exact absurd (hoff (.inl hstate)) hjob
  case quarantined => exact absurd (hoff (.inr hstate)) hjob
  case stopping => exact absurd hstate hstop
  all_goals rfl

/-! ### What follows an attempt result (R102) -/

theorem continueAfter_line (seg : SegId) (a : ActiveJob) (o : FrameOutcome) (s : State) :
    LineStep seg s (continueAfter seg a o s) := by
  unfold continueAfter
  split
  · split
    · exact (afterCompletion_completeAttempt_segStep seg o s).line
    · split
      · exact (afterCompletion_completeAttempt_segStep seg _ s).line
      · exact beginSettle_line seg _ o s
  · exact retryOrComplete_line seg o s
  · exact (afterCompletion_completeAttempt_segStep seg o s).line

theorem continueAfter_segOk {seg : SegId} (a : ActiveJob) (o : FrameOutcome) {s : State} (h : SegOk seg s)
    (hjob : (ctl seg s).active ≠ none) (hquiet : (ctl seg s).own = .quiet) (hcalm : (ctl seg s).recovery = none) :
    SegOk seg (continueAfter seg a o s) := by
  unfold continueAfter
  split
  · split
    · exact (afterCompletion_completeAttempt_segStep seg o s).ok h
    · next delay _ =>
      split
      · exact (afterCompletion_completeAttempt_segStep seg _ s).ok h
      · next hstop => exact beginSettle_ok delay o (holding_of_segOk h hjob hstop hquiet hcalm)
  · exact retryOrComplete_ok o h.loose hquiet hcalm fun _ => hjob
  · exact (afterCompletion_completeAttempt_segStep seg o s).ok h

theorem closeFrame_segStep (seg : SegId) (r : FrameRun) (s : State) : SegStep seg s (closeFrame seg r s) :=
  SegStep.modCtl fun _ _ ⟨hqueue, hjob, hactive, _, hrecovery⟩ =>
    ⟨hqueue, hjob, hactive, fun h => absurd rfl h, hrecovery⟩

/-- The frame of an active job ends with its stop and a result (R84, R102). -/
theorem closedFrame_segStep {seg : SegId} {s : State} {since : Word} (a : ActiveJob) (r : FrameRun) (o : FrameOutcome)
    (hown : (ctl seg s).own = .frame since) (hjob : (ctl seg s).active ≠ none) :
    SegStep seg s (takeResult seg o (continueAfter seg a o) (closeFrame seg r s)) := by
  refine ⟨(closeFrame_segStep seg r s).line.trans (takeResult_line (continueAfter_line seg a o _)), fun h => ?_⟩
  have hcounted := (countedResult_segStep seg o.result _).ok ((closeFrame_segStep seg r s).ok h)
  have hcalm := calm_of_onWire h (by rw [hown]; exact OwnWire.noConfusion)
  refine takeResult_ok (continueAfter_segOk a o hcounted ?_ ?_ ?_)
  all_goals rw [countedResult, ctl_modCtl_same, closeFrame, ctl_modCtl_same]
  · exact hjob
  · exact hcalm

theorem frameEndEvent_segStep (seg : SegId) (wire : Traffic) (s : State) :
    SegStep seg s (frameEndEvent seg wire s) := by
  unfold frameEndEvent
  split
  · next hown =>
    dsimp only
    split
    · exact .refl seg s
    · split
      · exact .refl seg s
      · split
        · next hjob => exact endStopping_segStep_of_frame hown hjob
        · next a hjob => exact closedFrame_segStep a _ _ hown (by rw [hjob]; exact Option.some_ne_none a)
  all_goals exact .refl seg s

theorem frameEndedEarlyEvent_segStep (seg : SegId) (wire : Traffic) (s : State) :
    SegStep seg s (frameEndedEarlyEvent seg wire s) := by
  unfold frameEndedEarlyEvent
  split
  · next hown =>
    dsimp only
    split
    · split
      · exact .refl seg s
      · split
        · next hjob => exact endStopping_segStep_of_frame hown hjob
        · next a hjob => exact closedFrame_segStep a _ _ hown (by rw [hjob]; exact Option.some_ne_none a)
    · exact .refl seg s
  all_goals exact .refl seg s

/-! ## Arbitration loss (R81, R101) -/

/-- Nothing of the part's own is on the wire in a foreign frame. -/
theorem enterForeign_ok {seg : SegId} (addressNext : Bool) (bits : Byte × Nat) {s : State}
    (hcalm : (ctl seg s).recovery = none) : SegOk seg (enterForeign seg addressNext bits s) := by
  rw [SegOk, enterForeign, ctl_modCtl_same]
  exact controllerOk_of_quiet rfl CtlState.noConfusion rfl hcalm

theorem loseFrame_line (seg : SegId) (r : FrameRun) (p : LossPoint) (s : State) :
    LineStep seg s (loseFrame seg r p s) := by
  unfold loseFrame enterForeign
  exact (modCtl_line seg _ s).trans (modCtl_line seg _ _)

theorem loseFrame_ok {seg : SegId} (r : FrameRun) (p : LossPoint) {s : State}
    (hcalm : (ctl seg s).recovery = none) : SegOk seg (loseFrame seg r p s) :=
  enterForeign_ok _ _ (by rw [ctl_modCtl_same]; exact hcalm)

theorem lossDecision_segStep (seg : SegId) (o : FrameOutcome) (s : State) : SegStep seg s (lossDecision seg o s) := by
  unfold lossDecision
  split
  · exact .refl seg s
  · split
    · exact ((modActive_segStep seg _ s).trans (modActive_segStep seg _ _)).trans (beginBusyWait_segStep seg _)
    · exact afterCompletion_completeAttempt_segStep seg o s
    · exact afterCompletion_completeJob_segStep seg _ _ s

theorem arbitrationLossEvent_segStep (seg : SegId) (wire : Traffic) (p : LossPoint) (s : State) :
    SegStep seg s (arbitrationLossEvent seg wire p s) := by
  unfold arbitrationLossEvent
  split
  · next hown =>
    split
    · split
      · next hjob => exact endStopping_segStep_of_frame hown hjob
      · dsimp only
        split
        · exact takeResult_segStep (afterCompletion_completeAttempt_segStep seg _ _)
        · refine ⟨takeResult_line ((loseFrame_line seg _ p _).trans (lossDecision_segStep seg _ _).line), fun h => ?_⟩
          refine takeResult_ok ((lossDecision_segStep seg _ _).ok (loseFrame_ok _ p ?_))
          rw [countedResult, ctl_modCtl_same]
          exact calm_of_onWire h (by rw [hown]; exact OwnWire.noConfusion)
    · exact .refl seg s
  all_goals exact .refl seg s

/-! ## Hold timeout and the stop attempt (R106) -/

theorem beginStopAttempt_segStep {seg : SegId} (o : FrameOutcome) {s : State} (hown : (ctl seg s).own ≠ .quiet) :
    SegStep seg s (beginStopAttempt seg o s) :=
  SegStep.trans
    (SegStep.modCtl fun _ _ ⟨hqueue, hjob, hactive, hwire, hrecovery⟩ =>
      ⟨hqueue, hjob, hactive, fun _ => hwire hown, hrecovery⟩)
    (modActive_segStep seg _ _)

/-- A hold timeout, in a frame or before a start: the stop attempt follows where the segment is not quarantined. -/
theorem holdTimeout_segStep {seg : SegId} (o : FrameOutcome) {s : State} (hown : (ctl seg s).own ≠ .quiet) :
    SegStep seg s (takeResult seg o (beginStopAttempt seg o) s) :=
  takeResult_segStep (beginStopAttempt_segStep o (by rw [countedResult, ctl_modCtl_same]; exact hown))

theorem holdTimeoutEvent_segStep (seg : SegId) (wire : Traffic) (s : State) :
    SegStep seg s (holdTimeoutEvent seg wire s) := by
  unfold holdTimeoutEvent
  split
  · next hown =>
    split
    · split
      · next hjob => exact endStopping_segStep_of_frame hown hjob
      · exact holdTimeout_segStep _ (by rw [hown]; exact OwnWire.noConfusion)
    · exact .refl seg s
  · next hown =>
    split
    · exact holdTimeout_segStep _ (by rw [hown]; exact OwnWire.noConfusion)
    · exact .refl seg s
  all_goals exact .refl seg s

/-- The completion formed at the end of a stop attempt is that of an attempt (R106). -/
theorem completeHoldTimeout_eq (seg : SegId) (s : State) :
    ∃ o, completeHoldTimeout seg s = completeAttempt seg o s := by
  unfold completeHoldTimeout
  split
  · next hjob => exact ⟨bareOutcome .holdTimeout, by rw [completeAttempt, hjob]⟩
  · exact ⟨_, rfl⟩

theorem stopAttemptEndEvent_segStep (seg : SegId) (s : State) : SegStep seg s (stopAttemptEndEvent seg s) := by
  obtain ⟨o, hcomplete⟩ := completeHoldTimeout_eq seg s
  unfold stopAttemptEndEvent
  rw [hcomplete]
  split
  · split
    · exact .refl seg s
    · have hcompleted := completeAttempt_line seg o s
      refine ⟨(hcompleted.trans (modCtl_line seg _ _)).trans (afterCompletion_line seg _), fun h => ?_⟩
      obtain ⟨⟨hqueue, hoff, -, hrecovery⟩, hjob⟩ := loose_completeAttempt o h.loose
      refine afterCompletion_ok ?_ (by rw [ctl_modCtl_same]; exact hjob)
      rw [SegLoose, ctl_modCtl_same]
      exact ⟨hqueue, hoff, fun hown => absurd rfl hown, hrecovery⟩
  all_goals exact .refl seg s

theorem stopAttemptTimeoutEvent_segStep (seg : SegId) (sense : RecoverySense) (s : State) :
    SegStep seg s (stopAttemptTimeoutEvent seg sense s) := by
  obtain ⟨o, hcomplete⟩ := completeHoldTimeout_eq seg s
  unfold stopAttemptTimeoutEvent
  rw [hcomplete]
  split
  · split
    · split
      · next hstate =>
        refine ⟨(completeAttempt_line seg o s).trans (endStopping_line seg _), fun h => ?_⟩
        obtain ⟨⟨hqueue, -, -, -⟩, -⟩ := loose_completeAttempt o h.loose
        obtain ⟨_, hctl⟩ := ctl_completeAttempt seg o s
        refine endStopping_ok ((hqueue ?_).imp And.right id)
        rw [hctl, hstate]
        rfl
      · exact ⟨(completeAttempt_line seg o s).trans (beginRecovery_line seg sense _),
          fun _ => beginRecovery_ok seg sense _⟩
    · exact .refl seg s
  all_goals exact .refl seg s

end Sys2Proof.Proofs
end

section
/-! The events of a segment on a busy bus and in recovery, and the segment commands (R98, R99, R109 to R114): each is a step
of that segment. -/

namespace Sys2Proof.Proofs

open Sys2Proof.Machine Sys2Proof.Safety Sys2Proof.Spec

/-! ## A busy bus and foreign frames (R98, R99) -/

/-- In a foreign frame the controller is online, with nothing of its own on the wire. -/
theorem of_inForeignFrame {seg : SegId} {s : State} (h : SegOk seg s) (hforeign : inForeignFrame (ctl seg s).state = true) :
    refusesJobs (ctl seg s).state = false ∧ (ctl seg s).own = .quiet ∧ (ctl seg s).recovery = none
      ∧ (ctl seg s).state ≠ .active := by
  rcases (inForeignFrame_iff (ctl seg s)).1 hforeign with e | e
  all_goals
    refine ⟨by rw [e]; rfl, quiet_of_segOk h ?_ ?_, calm_of_segOk h ?_, ?_⟩ <;> rw [e] <;> decide

theorem busBusy_line (seg : SegId) (s : State) : LineStep seg s (busBusy seg s) :=
  takeResult_line (retryOrComplete_line seg _ _)

theorem busBusy_ok {seg : SegId} {s : State} (h : SegOk seg s) (hforeign : inForeignFrame (ctl seg s).state = true) :
    SegOk seg (busBusy seg s) := by
  obtain ⟨-, hquiet, hcalm, hstate⟩ := of_inForeignFrame h hforeign
  have hcounted := (countedResult_segStep seg .busBusy s).ok h
  refine takeResult_ok (retryOrComplete_ok _ hcounted.loose ?_ ?_ ?_)
  all_goals rw [bareOutcome, countedResult, ctl_modCtl_same]
  · exact hquiet
  · exact hcalm
  · exact fun e => absurd e hstate

theorem state_select (seg : SegId) (s : State) : (ctl seg (select seg s)).state = (ctl seg s).state := by
  unfold select
  split
  · rfl
  · unfold reportStart
    split
    · rw [ctl_modCtl_same, ctl_modSlot, ctl_modCtl_same, ctl_setQueue]
    · rw [ctl_send, ctl_modCtl_same, ctl_setQueue]
    · rw [ctl_send, ctl_modCtl_same, ctl_setQueue]

theorem endBusyWait_segStep (seg : SegId) (s : State) :
    SegStep seg s (modCtl seg (fun c => { c with busySince := none }) s) := SegStep.modCtl fun _ _ h => h

theorem busyLimitExpiryEvent_segStep (seg : SegId) (s : State) : SegStep seg s (busyLimitExpiryEvent seg s) := by
  have hwait := endBusyWait_segStep seg s
  unfold busyLimitExpiryEvent
  split
  · exact .refl seg s
  · split
    · next hlimit =>
      have hforeign : inForeignFrame (ctl seg (modCtl seg (fun c => { c with busySince := none }) s)).state = true := by
        rw [ctl_modCtl_same]
        exact hlimit.1
      dsimp only
      split
      · split
        · exact hwait
        · refine ⟨(hwait.line.trans (select_line seg _)).trans (busBusy_line seg _), fun h => ?_⟩
          obtain ⟨honline, -⟩ := of_inForeignFrame (hwait.ok h) hforeign
          exact busBusy_ok (select_ok (hwait.ok h) honline) (by rw [state_select]; exact hforeign)
      · exact ⟨hwait.line.trans (busBusy_line seg _), fun h => busBusy_ok (hwait.ok h) hforeign⟩
    · exact .refl seg s

theorem foreignBegins_line (seg : SegId) (s : State) : LineStep seg s (foreignBegins seg s) := by
  have henter : LineStep seg s (enterForeign seg true (0#8, 0) s) := modCtl_line seg _ s
  have hwait := henter.trans (beginBusyWait_line seg _)
  unfold foreignBegins
  split
  · dsimp only
    split
    · exact henter
    · exact hwait
  · split
    · exact hwait
    all_goals exact henter

theorem foreignBegins_ok {seg : SegId} {s : State} (hcalm : (ctl seg s).recovery = none) :
    SegOk seg (foreignBegins seg s) := by
  have henter : SegOk seg (enterForeign seg true (0#8, 0) s) := enterForeign_ok _ _ hcalm
  have hwait := (beginBusyWait_segStep seg _).ok henter
  unfold foreignBegins
  split
  · dsimp only
    split
    · exact henter
    · exact hwait
  · split
    · exact hwait
    all_goals exact henter

theorem foreignBegins_segStep {seg : SegId} {s : State} (hstate : (ctl seg s).state ≠ .recovering) :
    SegStep seg s (foreignBegins seg s) :=
  ⟨foreignBegins_line seg s, fun h => foreignBegins_ok (calm_of_segOk h hstate)⟩

theorem foreignEnds_segStep {seg : SegId} {s : State} (hforeign : inForeignFrame (ctl seg s).state = true) :
    SegStep seg s (foreignEnds seg s) := by
  refine ⟨foreignEnds_line seg s, fun h => ?_⟩
  obtain ⟨-, hquiet, hcalm, -⟩ := of_inForeignFrame h hforeign
  exact foreignEnds_ok hquiet hcalm

/-! ## Recovery (R109) -/

theorem releasePulseEvent_segStep (seg : SegId) (lines after : Lines) (s : State) :
    SegStep seg s (releasePulseEvent seg lines after s) := by
  unfold releasePulseEvent
  split
  · next hr =>
    split
    · exact ⟨recoveryCheck_line seg _ _ _ s, fun h => recoveryCheck_ok _ _ _ (recovering_of_recovery h hr)⟩
    · exact ⟨recoverAt_line seg _ _ s, fun h => recoverAt_ok _ _ (recovering_of_recovery h hr)⟩
  all_goals exact .refl seg s

theorem lineClearHoldEndEvent_segStep (seg : SegId) (lines after : Lines) (s : State) :
    SegStep seg s (lineClearHoldEndEvent seg lines after s) := by
  unfold lineClearHoldEndEvent
  split
  · next hr =>
    split
    · split
      · exact ⟨recoveryStop_line seg _ _ _ s, fun h => recoveryStop_ok _ _ _ (recovering_of_recovery h hr)⟩
      · exact ⟨recoverAt_line seg _ _ s, fun h => recoverAt_ok _ _ (recovering_of_recovery h hr)⟩
    · exact .refl seg s
  all_goals exact .refl seg s

theorem recoveryHoldTimeoutEvent_segStep (seg : SegId) (s : State) : SegStep seg s (recoveryHoldTimeoutEvent seg s) := by
  unfold recoveryHoldTimeoutEvent
  split
  · split
    · exact ⟨segmentFault_line seg s, segmentFault_ok⟩
    · exact .refl seg s
  · exact .refl seg s

theorem recoveryLinesSensedHighEvent_segStep (seg : SegId) (sda : Bool) (after : Lines) (s : State) :
    SegStep seg s (recoveryLinesSensedHighEvent seg sda after s) := by
  unfold recoveryLinesSensedHighEvent
  split
  iterate 2
    next hr =>
      split
      · exact .refl seg s
      · exact ⟨recoveryCheck_line seg _ _ _ s, fun h => recoveryCheck_ok _ _ _ (recovering_of_recovery h hr)⟩
  · next hr =>
    split
    · exact .refl seg s
    · exact ⟨recoveryStop_line seg _ _ _ s, fun h => recoveryStop_ok _ _ _ (recovering_of_recovery h hr)⟩
  all_goals exact .refl seg s

/-! ## The segment commands at the controller (R111 to R114) -/

theorem segmentOnline_segStep (sense : SegmentSense) (seg : SegId) (s : State) :
    SegStep seg s (segmentOnline sense seg s).1 := by
  unfold segmentOnline
  split
  · exact .refl seg s
  · next hstate =>
    have hoff : (ctl seg s).state = .offline := not_not.1 hstate
    split
    · exact .refl seg s
    · split
      · dsimp only
        refine ⟨modCtl_line seg _ s, fun h => ?_⟩
        have hquiet := quiet_of_segOk h (by rw [hoff]; decide) (by rw [hoff]; decide)
        have hcalm := calm_of_segOk h (by rw [hoff]; decide)
        rw [SegOk, ctl_modCtl_same]
        exact controllerOk_of_quiet rfl CtlState.noConfusion hquiet hcalm
      · exact ⟨beginRecovery_line seg _ s, fun _ => beginRecovery_ok seg _ s⟩

theorem segmentRestore_segStep (sense : RecoverySense) (seg : SegId) (s : State) :
    SegStep seg s (segmentRestore sense seg s).1 := by
  unfold segmentRestore
  split
  · exact .refl seg s
  · exact ⟨(modCtl_line seg _ s).trans (beginRecovery_line seg _ _), fun _ => beginRecovery_ok seg _ _⟩

theorem completeJob_segStep_of_not_active {seg : SegId} (o : FrameOutcome) (used : BitVec 4) {s : State}
    (hstate : (ctl seg s).state ≠ .active) : SegStep seg s (completeJob seg o used s) := by
  refine ⟨completeJob_line seg o used s, fun h => ?_⟩
  obtain ⟨⟨hqueue, hoff, hwire, hrecovery⟩, -⟩ := loose_completeJob o used h.loose
  refine ⟨hqueue, hoff, fun hactive => ?_, hwire, hrecovery⟩
  obtain ⟨_, hctl⟩ := ctl_completeJob seg o used s
  rw [hctl] at hactive
  exact absurd hactive hstate

/-- The active job of a segment that stops completes or runs on (Table 6.5). -/
theorem stopActiveJob_cases (seg : SegId) (s : State) :
    stopActiveJob seg s = s ∨ ∃ o used, stopActiveJob seg s = completeJob seg o used s := by
  have hstopped (a : ActiveJob) : ∃ o used, completeStopped seg a s = completeJob seg o used s := by
    unfold completeStopped
    split
    · split <;> exact ⟨_, _, rfl⟩
    · exact ⟨_, _, rfl⟩
  unfold stopActiveJob
  split
  · exact .inl rfl
  · next a _ =>
    cases a.phase with
    | running => exact .inl rfl
    | due => exact .inr (hstopped a)
    | backoff _ => exact .inr (hstopped a)
    | backoffPending => exact .inr (hstopped a)
    | settle _ => exact .inr ⟨_, _, rfl⟩
    | recovering => exact .inr ⟨_, _, rfl⟩

theorem stopActiveJob_segStep {seg : SegId} {s : State} (hstate : (ctl seg s).state ≠ .active) :
    SegStep seg s (stopActiveJob seg s) := by
  rcases stopActiveJob_cases seg s with e | ⟨o, used, e⟩ <;> rw [e]
  · exact .refl seg s
  · exact completeJob_segStep_of_not_active o used hstate

theorem state_stopActiveJob (seg : SegId) (s : State) : (ctl seg (stopActiveJob seg s)).state = (ctl seg s).state := by
  rcases stopActiveJob_cases seg s with e | ⟨o, used, e⟩ <;> rw [e]
  obtain ⟨_, hctl⟩ := ctl_completeJob seg o used s
  rw [hctl]

theorem endStoppingIfQuiet_segStep {seg : SegId} {s : State} (hstate : (ctl seg s).state = .stopping) :
    SegStep seg s (endStoppingIfQuiet seg s) := by
  unfold endStoppingIfQuiet
  split
  · exact ⟨endStopping_line seg s, fun h => endStopping_ok_of_stopping h hstate⟩
  · exact .refl seg s

/-- A segment enters STOPPING with its queue flushed (R112). -/
theorem enterStopping_segStep (seg : SegId) (s : State) :
    SegStep seg s (modCtl seg stoppingCtl (cutReception seg (flush seg s))) := by
  refine ⟨((flush_line seg s).trans (cutReception_line seg _)).trans (modCtl_line seg _ _), fun _ => ?_⟩
  have hqueue : queue seg (modCtl seg stoppingCtl (cutReception seg (flush seg s))) = SegQueue.reset :=
    queue_flush_same seg s
  rw [SegOk, hqueue, ctl_modCtl_same]
  refine ⟨fun _ => .inr ⟨rfl, rfl⟩, fun ho => ?_, fun ha => ?_, fun _ => .inr rfl, fun hr => absurd rfl hr⟩
  · rcases ho with e | e <;> cases e
  · cases ha

theorem segmentOffline_segStep (seg : SegId) (s : State) : SegStep seg s (segmentOffline seg s).1 := by
  have hstopping : (ctl seg (modCtl seg stoppingCtl (cutReception seg (flush seg s)))).state = .stopping := by
    rw [ctl_modCtl_same]
    rfl
  have hstop := (enterStopping_segStep seg s).trans (stopActiveJob_segStep (by rw [hstopping]; decide))
  have hend := hstop.trans (endStoppingIfQuiet_segStep (by rw [state_stopActiveJob, hstopping]))
  unfold segmentOffline
  split
  · exact .refl seg s
  · exact .refl seg s
  · next hstate =>
    refine ⟨(modCtl_line seg _ s).trans (raise_line seg _ _), fun h => ?_⟩
    obtain ⟨hqueue, -, -, -, -⟩ := h
    rcases hqueue (by rw [hstate]; rfl) with ⟨hwrong, -⟩ | ⟨hurgent, hroutine⟩
    · rw [hstate] at hwrong
      cases hwrong
    · rw [SegOk, ctl_raise, ctl_modCtl_same]
      exact controllerOk_offline hurgent hroutine
  all_goals exact hend

end Sys2Proof.Proofs
end

section
/-! Every command, by its row: what it keeps of the queues and the controllers, and the two invariants of every step (R60,
R63, R66, R70, R73, R93). -/

namespace Sys2Proof.Proofs

open Sys2Proof.Machine Sys2Proof.Safety Sys2Proof.Spec

/-! ## Receptions (R99, R100, R134, R137) -/

theorem setReception_part (seg : SegId) (r : Option Reception) (s : State) : PartStep s (setReception seg r s) :=
  .of_same rfl rfl rfl rfl

/-- A change of the controller in a foreign frame, to one of the two states of such a frame. -/
theorem modCtl_foreign_part {seg : SegId} {f : Controller → Controller} {s : State}
    (hforeign : inForeignFrame (ctl seg s).state = true) (hstate : inForeignFrame (f (ctl seg s)).state = true)
    (hown : (f (ctl seg s)).own = (ctl seg s).own) (hrecovery : (f (ctl seg s)).recovery = (ctl seg s).recovery) :
    PartStep s (modCtl seg f s) := by
  refine SegStep.part ⟨modCtl_line seg f s, fun h => ?_⟩
  obtain ⟨-, hquiet, hcalm, -⟩ := of_inForeignFrame h hforeign
  rw [SegOk, ctl_modCtl_same]
  rcases (inForeignFrame_iff _).1 hstate with e | e
  all_goals exact controllerOk_of_quiet (by rw [e]; rfl) (by rw [e]; decide) (hown.trans hquiet) (hrecovery.trans hcalm)

theorem decideAddress_part {seg : SegId} (byte : Byte) {s : State} (hforeign : inForeignFrame (ctl seg s).state = true) :
    PartStep s (decideAddress seg byte s) := by
  unfold decideAddress
  split
  · exact .refl s
  · split
    · exact .refl s
    · split
      · exact .refl s
      · split
        · exact .of_same rfl rfl rfl rfl
        · exact (setReception_part seg _ s).trans (modCtl_foreign_part hforeign rfl rfl rfl)

theorem addressByteDecisionEvent_part (seg : SegId) (byte : Byte) (s : State) :
    PartStep s (addressByteDecisionEvent seg byte s) := by
  unfold addressByteDecisionEvent
  split
  · next hforeign =>
    refine (SegStep.part (SegStep.modCtl fun _ _ h => h)).trans (decideAddress_part _ ?_)
    rw [ctl_modCtl_same, hforeign.1]
    rfl
  · exact .refl s

/-- A reception's end at the Listen Unit leaves queues, controllers and the course of a soft reset (R137). -/
theorem endReception_frame (seg : SegId) (r : Reception) (s : State) :
    (endReception seg r s).queues = s.queues ∧ (endReception seg r s).ctls = s.ctls
      ∧ (endReception seg r s).resetting = s.resetting ∧ (endReception seg r s).undelivered = s.undelivered := by
  unfold endReception sendNotice
  repeat' split
  all_goals exact ⟨rfl, rfl, rfl, rfl⟩

theorem receptionEndEvent_part (seg : SegId) (bytes : List Byte) (ending : ReceptionEnding) (s : State) :
    PartStep s (receptionEndEvent seg bytes ending s) := by
  unfold receptionEndEvent
  split
  · next r hstate _ =>
    dsimp only
    have hreceived : PartStep s (modCtl seg (receiveBytes bytes) s) := SegStep.part (SegStep.modCtl fun _ _ h => h)
    obtain ⟨hqueues, hctls, hresetting, hundelivered⟩ := endReception_frame seg r (modCtl seg (receiveBytes bytes) s)
    have hended := hreceived.trans (PartStep.of_same hqueues hctls hresetting hundelivered)
    have hctl : ctl seg (endReception seg r (modCtl seg (receiveBytes bytes) s)) = receiveBytes bytes (ctl seg s) :=
      (congrArg (getAt · seg) hctls).trans (ctl_modCtl_same _ _ _)
    have hforeign : inForeignFrame (ctl seg (endReception seg r (modCtl seg (receiveBytes bytes) s))).state = true := by
      rw [hctl, receiveBytes_state, hstate]
      rfl
    split
    · exact hended.trans (foreignEnds_segStep hforeign).part
    · exact hended.trans (modCtl_foreign_part hforeign rfl rfl rfl)
  · exact .refl s

theorem foreignStartEvent_part (seg : SegId) (s : State) : PartStep s (foreignStartEvent seg s) := by
  unfold foreignStartEvent
  split
  iterate 3
    next hstate => exact (foreignBegins_segStep (by rw [hstate]; decide)).part
  · next hstate =>
    split
    · exact (foreignBegins_segStep (by rw [hstate]; decide)).part
    all_goals exact .refl s
  · exact SegStep.part (SegStep.modCtl fun _ _ h => h)
  · exact receptionEndEvent_part seg [] .repeatedStart s
  all_goals exact .refl s

theorem foreignStopEvent_part (seg : SegId) (s : State) : PartStep s (foreignStopEvent seg s) := by
  unfold foreignStopEvent
  split
  · next hstate => exact (foreignEnds_segStep (by rw [hstate]; rfl)).part
  · exact receptionEndEvent_part seg [] .stop s
  all_goals exact .refl s

/-! ## Reports and due timers at the Mirror Table -/

theorem startTaken_part (e : EntryId) (r : JobRef) (s : State) : PartStep s (startTaken e r s) := by
  unfold startTaken
  dsimp only
  split
  · exact .refl s
  · split
    · split
      · exact SegStep.part ((SegStep.modCtl fun _ _ h => h).trans (modActive_segStep _ _ _))
      all_goals exact (modActive_segStep _ _ s).part
    · exact .refl s

/-- A report in flight is taken: the reports are no matter of queues and controllers. -/
theorem reports_part (rs : List Report) (s : State) : PartStep s { s with reports := rs } := .of_same rfl rfl rfl rfl

theorem startReportEvent_part (e : EntryId) (s : State) : PartStep s (startReportEvent e s) := by
  unfold startReportEvent
  split
  · exact ((reports_part _ s).trans (.of_mirror (modEntry_step e _ _))).trans (startTaken_part e _ _)
  all_goals exact .refl s

theorem refreshCompletionEvent_part (e : EntryId) (s : State) : PartStep s (refreshCompletionEvent e s) := by
  unfold refreshCompletionEvent
  split
  · split
    · exact (reports_part _ s).trans (.of_mirror (takeRefresh_step e _ _))
    · exact .refl s
  all_goals exact .refl s

theorem memberRefreshCompletionEvent_part (e : EntryId) (s : State) : PartStep s (memberRefreshCompletionEvent e s) := by
  unfold memberRefreshCompletionEvent
  split
  · split
    · exact .refl s
    · split
      · exact (reports_part _ s).trans (.of_mirror (takeMemberRefresh_step e _ _ _))
      · exact .refl s
  all_goals exact .refl s

theorem writeCompletionEvent_part (e : EntryId) (s : State) : PartStep s (writeCompletionEvent e s) := by
  unfold writeCompletionEvent
  split
  · dsimp only
    split
    · split
      · exact (reports_part _ s).trans (.of_mirror (enabledWrite_step e _ _))
      · exact (reports_part _ s).trans (.of_mirror ((modEntry_step e _ _).trans (reachDisabled_step e _)))
      · exact reports_part _ s
    · exact .refl s
  all_goals exact .refl s

theorem slotCompletionEvent_part (k : SlotId) (s : State) : PartStep s (slotCompletionEvent k s) := by
  unfold slotCompletionEvent
  split
  · exact .of_same rfl rfl rfl rfl
  all_goals exact .refl s

theorem deviceNoticeEvent_part (s : State) : PartStep s (deviceNoticeEvent s) := by
  unfold deviceNoticeEvent
  split
  · exact .refl s
  · next n rest _ =>
    have htaken : PartStep s { s with notices := rest } := .of_same rfl rfl rfl rfl
    exact htaken.trans (.of_mirror (takeNotice_step n _))

theorem entryDueExpiryEvent_part (e : EntryId) (s : State) : PartStep s (entryDueExpiryEvent e s) := by
  unfold entryDueExpiryEvent
  split
  · split
    · exact .of_mirror (entryExpiry_step e _ s)
    · exact .refl s
  · exact .refl s

theorem groupDueExpiryEvent_part (g : GroupId) (s : State) : PartStep s (groupDueExpiryEvent g s) := by
  unfold groupDueExpiryEvent
  split
  · split
    · exact .of_mirror (groupExpiry_step g _ s)
    · exact .refl s
  · exact .refl s

/-! ## Resets and the timebase -/

/-- What passes on the lines is no matter of Table 6.1 (R92). -/
theorem linesPass_part (ws : List LineReport) (s : State) : PartStep s (linesPass ws s) := by
  obtain ⟨⟨cs, hframe⟩, hsame⟩ := takeLineReports_same ws s
  have hqueue (q : SegId) : queue q (linesPass ws s) = queue q s := by
    rw [hframe]
    rfl
  refine ⟨fun h q => ?_, fun h q => ?_⟩
  · rw [hqueue]
    exact h q
  · rw [hqueue, awaits_congr (s := s) (by rw [hframe]) (by rw [hframe])]
    exact (hsame q).ok (h q)

theorem tick_part (ws : List LineReport) (s : State) : PartStep s (tick ws s) :=
  (linesPass_part ws s).trans (.of_same rfl rfl rfl rfl)

theorem nextDelivery_part (s : State) : PartStep s (nextDelivery s) :=
  ⟨nextDelivery_queuesBounded, nextDelivery_controllers⟩

theorem nextDeliveries_part (n : Nat) (s : State) : PartStep s (nextDeliveries n s) := by
  induction n generalizing s with
  | zero => exact .refl s
  | succ n ih => exact (nextDelivery_part s).trans (ih _)

/-- A soft reset begins only where none is in progress, so that until then every queue that refuses jobs is empty (R149). -/
theorem softReset_part (taken : Fin 21) (u : Unit) {s : State} (hr : s.resetting = false) :
    PartStep s (softReset taken u s).1 := by
  have hbegun : PartStep s { s with resetting := true, undelivered := 20 } := by
    refine ⟨id, fun h q => ?_⟩
    obtain ⟨hqueue, hrest⟩ := h q
    have hawaits : awaitsQueue q s = false := by
      rw [awaitsQueue, resetReached, hr]
      rfl
    refine ⟨fun hrefuses => .inr ((hqueue hrefuses).resolve_left fun hstop => ?_), hrest⟩
    rw [hawaits] at hstop
    exact Bool.false_ne_true hstop.2
  exact hbegun.trans (nextDeliveries_part taken.val _)

theorem pinReset_part (s : State) : PartStep s (pinReset s) := by
  have hqueue (q : SegId) : queue q (pinReset s) = SegQueue.reset := getAt_replicate _ q
  have hctl (q : SegId) : ctl q (pinReset s) = Controller.reset := getAt_replicate _ q
  refine ⟨fun _ q => ?_, fun _ q => ?_⟩
  · rw [hqueue]
    exact bounded_reset
  · rw [hqueue, hctl]
    exact controllerOk_offline (c := Controller.reset) rfl rfl

/-! ## The Command Port (R146, R147) -/

theorem outOfReset_part {f : State → State} (h : ∀ s, PartStep s (f s)) (s : State) : PartStep s (outOfReset f s) := by
  unfold outOfReset
  split
  · exact .refl s
  · exact h s

theorem outOfReset_segStep {f : State → State} {seg : SegId} (h : ∀ s, SegStep seg s (f s)) (s : State) :
    PartStep s (outOfReset f s) := outOfReset_part (fun s => (h s).part) s

theorem answerCommand_part (code : Byte) (tag : Half) (a : Answer) (s : State) :
    PartStep s (answerCommand code tag a s) := by
  cases a <;> exact .of_same rfl rfl rfl rfl

/-- A command with a known code is its owner's, who finds the part not RESETTING. -/
theorem portCommand_part {α : Type} {owner : α → State → State × Answer}
    (h : ∀ i s, s.resetting = false → PartStep s (owner i s).1) (code arg : Byte) (tag : Half) (index : Option α)
    (s : State) : PartStep s (portCommand code arg tag index owner s) := by
  have hword : PartStep s { s with command := commandWord code arg tag } := .of_same rfl rfl rfl rfl
  unfold portCommand
  split
  · exact .refl s
  · dsimp only
    split
    · exact hword.trans (answerCommand_part _ _ _ _)
    · next hr =>
      split
      · exact hword.trans (answerCommand_part _ _ _ _)
      · exact (hword.trans (h _ _ (Bool.eq_false_iff.2 hr))).trans (answerCommand_part _ _ _ _)

/-! ### The owners -/

theorem slotSubmit_part (k : SlotId) (s : State) : PartStep s (slotSubmit k s).1 := by
  have hadmit := PartStep.of_mirror
    (admit_step (slot k s).seg { ref := .direct k, cls := .urgent, tag := none, attempts := 0#3 } s)
  unfold slotSubmit
  split
  · exact .refl s
  · split
    · exact .refl s
    · revert hadmit
      split <;> next heq => rw [heq]; intro hadmit; exact hadmit.trans (.of_same rfl rfl rfl rfl)

theorem modSlot_part (k : SlotId) (f : Slot → Slot) (s : State) : PartStep s (modSlot k f s) := .of_same rfl rfl rfl rfl

theorem slotCancel_part (k : SlotId) (s : State) : PartStep s (slotCancel k s).1 := by
  unfold slotCancel
  split
  · exact .refl s
  · exact .refl s
  · exact (PartStep.of_mirror (removeJob_step _ _ s)).trans (.of_same rfl rfl rfl rfl)
  · split
    · exact .refl s
    · exact (modSlot_part k _ s).trans (abortRequest_segStep _ k _).part

theorem slotRelease_part (k : SlotId) (s : State) : PartStep s (slotRelease k s).1 := by
  unfold slotRelease
  split
  · exact .of_same rfl rfl rfl rfl
  · exact .refl s

theorem listenEnable_part (i : ListenId) (s : State) : PartStep s (listenEnable i s).1 := by
  unfold listenEnable
  split
  · exact .refl s
  · split
    · exact .refl s
    · exact .of_same rfl rfl rfl rfl

theorem listenDisable_part (i : ListenId) (s : State) : PartStep s (listenDisable i s).1 := by
  unfold listenDisable
  split
  · exact .of_same rfl rfl rfl rfl
  · exact .refl s

theorem capturePop_part (u : Unit) (s : State) : PartStep s (capturePop u s).1 := by
  unfold capturePop
  split
  · exact .refl s
  · exact .of_same rfl rfl rfl rfl

theorem captureFlush_part (u : Unit) (s : State) : PartStep s (captureFlush u s).1 := .of_same rfl rfl rfl rfl

/-! ### Full writes of the command word -/

section
variable (arg : Byte) (tag : Half) (s : State)

theorem commandEntryEnable_part : PartStep s (commandEntryEnable arg tag s) :=
  portCommand_part (fun e s _ => .of_mirror (entryEnable_step e s)) _ _ _ _ s

theorem commandEntryDisable_part : PartStep s (commandEntryDisable arg tag s) :=
  portCommand_part (fun e s _ => .of_mirror (entryDisable_step e s)) _ _ _ _ s

theorem commandEntryRefresh_part : PartStep s (commandEntryRefresh arg tag s) :=
  portCommand_part (fun e s _ => .of_mirror (entryRefresh_step e s)) _ _ _ _ s

theorem commandEntryCommit_part : PartStep s (commandEntryCommit arg tag s) :=
  portCommand_part (fun e s _ => .of_mirror (entryCommit_step e s)) _ _ _ _ s

theorem commandEntryAckFault_part : PartStep s (commandEntryAckFault arg tag s) :=
  portCommand_part (fun e s _ => .of_mirror (entryAckFault_step e s)) _ _ _ _ s

theorem commandGroupSweep_part : PartStep s (commandGroupSweep arg tag s) :=
  portCommand_part (fun g s _ => .of_mirror (groupSweep_step g s)) _ _ _ _ s

theorem commandSegmentOnline_part (sense : SegmentSense) : PartStep s (commandSegmentOnline arg tag sense s) :=
  portCommand_part (fun q s _ => (segmentOnline_segStep sense q s).part) _ _ _ _ s

theorem commandSegmentOffline_part : PartStep s (commandSegmentOffline arg tag s) :=
  portCommand_part (fun q s _ => (segmentOffline_segStep q s).part) _ _ _ _ s

theorem commandSegmentRestore_part (sense : RecoverySense) : PartStep s (commandSegmentRestore arg tag sense s) :=
  portCommand_part (fun q s _ => (segmentRestore_segStep sense q s).part) _ _ _ _ s

theorem commandSlotSubmit_part : PartStep s (commandSlotSubmit arg tag s) :=
  portCommand_part (fun k s _ => slotSubmit_part k s) _ _ _ _ s

theorem commandSlotCancel_part : PartStep s (commandSlotCancel arg tag s) :=
  portCommand_part (fun k s _ => slotCancel_part k s) _ _ _ _ s

theorem commandSlotRelease_part : PartStep s (commandSlotRelease arg tag s) :=
  portCommand_part (fun k s _ => slotRelease_part k s) _ _ _ _ s

theorem commandListenEnable_part : PartStep s (commandListenEnable arg tag s) :=
  portCommand_part (fun i s _ => listenEnable_part i s) _ _ _ _ s

theorem commandListenDisable_part : PartStep s (commandListenDisable arg tag s) :=
  portCommand_part (fun i s _ => listenDisable_part i s) _ _ _ _ s

theorem commandCapturePop_part : PartStep s (commandCapturePop arg tag s) :=
  portCommand_part (fun u s _ => capturePop_part u s) _ _ _ _ s

theorem commandCaptureFlush_part : PartStep s (commandCaptureFlush arg tag s) :=
  portCommand_part (fun u s _ => captureFlush_part u s) _ _ _ _ s

theorem commandSoftReset_part (taken : Fin 21) : PartStep s (commandSoftReset arg tag taken s) :=
  portCommand_part (fun u _ hr => softReset_part taken u hr) _ _ _ _ s

theorem issueCommand_part (code : Byte) : PartStep s (issueCommand code arg tag s) := by
  have hdraw : PartStep s (drawSense s) := .of_same rfl rfl rfl rfl
  unfold issueCommand
  split
  · exact .refl s
  · split
    · exact commandEntryEnable_part arg tag s
    · exact commandEntryDisable_part arg tag s
    · exact commandEntryRefresh_part arg tag s
    · exact commandEntryCommit_part arg tag s
    · exact commandEntryAckFault_part arg tag s
    · exact commandGroupSweep_part arg tag s
    · exact hdraw.trans (commandSegmentOnline_part arg tag _ _)
    · exact commandSegmentOffline_part arg tag s
    · exact hdraw.trans (commandSegmentRestore_part arg tag _ _)
    · exact commandSlotSubmit_part arg tag s
    · exact commandSlotCancel_part arg tag s
    · exact commandSlotRelease_part arg tag s
    · exact commandListenEnable_part arg tag s
    · exact commandListenDisable_part arg tag s
    · exact commandCapturePop_part arg tag s
    · exact commandCaptureFlush_part arg tag s
    · exact commandSoftReset_part arg tag s 20
    · exact .of_same rfl rfl rfl rfl

end

/-! ## Host accesses (R155 to R158) -/

theorem storeGroupPeriod_part (g : GroupId) (period : Half) (s : State) : PartStep s (storeGroupPeriod g period s) := by
  have hstored : MirrorStep s (modGroup g (fun x => { x with period := period }) s) := modGroup_step g _ s
  unfold storeGroupPeriod
  dsimp only
  split
  · exact .of_mirror (hstored.trans (groupExpiry_step g _ _))
  · exact .of_mirror hstored

theorem storeGlobal_part (g : GlobalWord) (data : Word) (s : State) : PartStep s (storeGlobal g data s) := by
  unfold storeGlobal
  split
  · exact issueCommand_part _ _ s _
  all_goals exact .of_same rfl rfl rfl rfl

theorem storeLoc_part (l : Loc) (be : BitVec 4) (data : Word) (s : State) : PartStep s (storeLoc l be data s) := by
  unfold storeLoc
  split
  · exact storeGlobal_part _ data s
  · exact SegStep.part (SegStep.modCtl fun _ _ h => h)
  · exact SegStep.part (SegStep.modCtl fun _ _ h => h)
  · exact storeGroupPeriod_part _ _ s
  all_goals exact .of_same rfl rfl rfl rfl

theorem writeWord_part (l : Option Loc) (a : Addr) (be : BitVec 4) (data : Word) (s : State) :
    PartStep s (writeWord l a be data s) := by
  unfold writeWord
  split
  · exact .refl s
  · split
    · exact storeLoc_part _ be data s
    · exact .of_same rfl rfl rfl rfl
    · exact .refl s

theorem hostRead_part (a : Addr) (s : State) : PartStep s (hostRead a s) := by
  unfold hostRead
  dsimp only
  split <;> exact .of_same rfl rfl rfl rfl

/-! ## Every command -/

/-- A command answers a next state with the bounds of the queues and the controllers as their states allow. -/
theorem exec_part (i : Instr) (s : State) : ∃ t, exec i s = .next t ∧ PartStep s t := by
  have hlines (reports : List LineReport) := outOfReset_part (linesPass_part reports) s
  cases i with
  | entryEnable arg tag => exact ⟨_, rfl, commandEntryEnable_part arg tag s⟩
  | entryDisable arg tag => exact ⟨_, rfl, commandEntryDisable_part arg tag s⟩
  | entryRefresh arg tag => exact ⟨_, rfl, commandEntryRefresh_part arg tag s⟩
  | entryCommit arg tag => exact ⟨_, rfl, commandEntryCommit_part arg tag s⟩
  | entryAckFault arg tag => exact ⟨_, rfl, commandEntryAckFault_part arg tag s⟩
  | groupSweep arg tag => exact ⟨_, rfl, commandGroupSweep_part arg tag s⟩
  | segmentOnline arg tag sense => exact ⟨_, rfl, commandSegmentOnline_part arg tag s sense⟩
  | segmentOffline arg tag => exact ⟨_, rfl, commandSegmentOffline_part arg tag s⟩
  | segmentRestore arg tag sense => exact ⟨_, rfl, commandSegmentRestore_part arg tag s sense⟩
  | slotSubmit arg tag => exact ⟨_, rfl, commandSlotSubmit_part arg tag s⟩
  | slotCancel arg tag reports => exact ⟨_, rfl, (hlines reports).trans (commandSlotCancel_part arg tag _)⟩
  | slotRelease arg tag => exact ⟨_, rfl, commandSlotRelease_part arg tag s⟩
  | listenEnable arg tag => exact ⟨_, rfl, commandListenEnable_part arg tag s⟩
  | listenDisable arg tag => exact ⟨_, rfl, commandListenDisable_part arg tag s⟩
  | capturePop arg tag => exact ⟨_, rfl, commandCapturePop_part arg tag s⟩
  | captureFlush arg tag => exact ⟨_, rfl, commandCaptureFlush_part arg tag s⟩
  | softReset arg tag reports taken => exact ⟨_, rfl, (hlines reports).trans (commandSoftReset_part arg tag _ taken)⟩
  | unknownCommand code arg tag => exact ⟨_, rfl, issueCommand_part arg tag s code⟩
  | stagingBufferWrite e w be data => exact ⟨_, rfl, writeWord_part _ _ be data s⟩
  | groupPeriodWrite r be data => exact ⟨_, rfl, writeWord_part _ _ be data s⟩
  | eventFlagWrite be data => exact ⟨_, rfl, writeWord_part _ _ be data s⟩
  | eventEnableWrite be data => exact ⟨_, rfl, writeWord_part _ _ be data s⟩
  | accessErrorRecordClear be data => exact ⟨_, rfl, writeWord_part _ _ be data s⟩
  | accessErrorCountClear be data => exact ⟨_, rfl, writeWord_part _ _ be data s⟩
  | hostWrite a be data => exact ⟨_, rfl, writeWord_part _ a be data s⟩
  | unmappedRead a => exact ⟨_, rfl, hostRead_part a s⟩
  | pinReset => exact ⟨_, rfl, pinReset_part s⟩
  | pinResetRelease => exact ⟨_, rfl, .of_same rfl rfl rfl rfl⟩
  | timebaseTick reports => exact ⟨_, rfl, outOfReset_part (tick_part reports) s⟩
  | entryDueExpiry e => exact ⟨_, rfl, outOfReset_part (entryDueExpiryEvent_part e) s⟩
  | groupDueExpiry g => exact ⟨_, rfl, outOfReset_part (groupDueExpiryEvent_part g) s⟩
  | selection q => exact ⟨_, rfl, outOfReset_segStep (selectionEvent_segStep q) s⟩
  | startReport e => exact ⟨_, rfl, outOfReset_part (startReportEvent_part e) s⟩
  | attemptBegin q lines sense => exact ⟨_, rfl, outOfReset_segStep (attemptBeginEvent_segStep q lines sense) s⟩
  | frameEnd q wire => exact ⟨_, rfl, outOfReset_segStep (frameEndEvent_segStep q wire) s⟩
  | frameEndedEarly q wire => exact ⟨_, rfl, outOfReset_segStep (frameEndedEarlyEvent_segStep q wire) s⟩
  | arbitrationLoss q wire p => exact ⟨_, rfl, outOfReset_segStep (arbitrationLossEvent_segStep q wire p) s⟩
  | holdTimeout q wire => exact ⟨_, rfl, outOfReset_segStep (holdTimeoutEvent_segStep q wire) s⟩
  | stopAttemptEnd q => exact ⟨_, rfl, outOfReset_segStep (stopAttemptEndEvent_segStep q) s⟩
  | stopAttemptTimeout q sense => exact ⟨_, rfl, outOfReset_segStep (stopAttemptTimeoutEvent_segStep q sense) s⟩
  | settleEnd q => exact ⟨_, rfl, outOfReset_segStep (settleEndEvent_segStep q) s⟩
  | backoffEnd q => exact ⟨_, rfl, outOfReset_segStep (backoffEndEvent_segStep q) s⟩
  | busyLimitExpiry q => exact ⟨_, rfl, outOfReset_segStep (busyLimitExpiryEvent_segStep q) s⟩
  | foreignStart q => exact ⟨_, rfl, outOfReset_part (foreignStartEvent_part q) s⟩
  | foreignStop q => exact ⟨_, rfl, outOfReset_part (foreignStopEvent_part q) s⟩
  | addressByteDecision q byte => exact ⟨_, rfl, outOfReset_part (addressByteDecisionEvent_part q byte) s⟩
  | receptionEnd q bytes ending => exact ⟨_, rfl, outOfReset_part (receptionEndEvent_part q bytes ending) s⟩
  | deviceNotice => exact ⟨_, rfl, outOfReset_part deviceNoticeEvent_part s⟩
  | refreshCompletion e => exact ⟨_, rfl, outOfReset_part (refreshCompletionEvent_part e) s⟩
  | memberRefreshCompletion e => exact ⟨_, rfl, outOfReset_part (memberRefreshCompletionEvent_part e) s⟩
  | writeCompletion e => exact ⟨_, rfl, outOfReset_part (writeCompletionEvent_part e) s⟩
  | slotCompletion k => exact ⟨_, rfl, outOfReset_part (slotCompletionEvent_part k) s⟩
  | releasePulse q lines after => exact ⟨_, rfl, outOfReset_segStep (releasePulseEvent_segStep q lines after) s⟩
  | lineClearHoldEnd q lines after => exact ⟨_, rfl, outOfReset_segStep (lineClearHoldEndEvent_segStep q lines after) s⟩
  | recoveryHoldTimeout q => exact ⟨_, rfl, outOfReset_segStep (recoveryHoldTimeoutEvent_segStep q) s⟩
  | clockLineSensedHigh q sda sense =>
    exact ⟨_, rfl, outOfReset_segStep (clockLineSensedHighEvent_segStep q sda sense) s⟩
  | recoveryLinesSensedHigh q sda after =>
    exact ⟨_, rfl, outOfReset_segStep (recoveryLinesSensedHighEvent_segStep q sda after) s⟩

/-- A step takes the front command, or on an empty queue the next delivery of a soft reset. -/
theorem step_part {s t : State} (h : step s = .next t) : PartStep s t := by
  unfold step at h
  split at h
  · cases h
    exact outOfReset_part nextDelivery_part s
  · next c rest _ =>
    obtain ⟨u, hu, hpart⟩ := exec_part c { s with pending := rest }
    rw [hu] at h
    cases h
    have htaken : PartStep s { s with pending := rest } := .of_same rfl rfl rfl rfl
    exact htaken.trans hpart

/-- Settles O56: every command is a step of the part. -/
theorem queuesStayBounded : Obligations.QueuesStayBounded := fun _ _ hs h => (step_part h).bounded hs

/-- Settles O58: every command is a step of the part. -/
theorem controllerStatesStayLegal : Obligations.ControllerStatesStayLegal := fun _ _ hs h => (step_part h).controllers hs

end Sys2Proof.Proofs
end

section
/-! Segment Queues in the words of the rules: requests (R63 to R65), the flush (R66), and selections, by an IDLE controller
and at the busy limit (R68, R69, R98, R123). -/

namespace Sys2Proof.Proofs

open Sys2Proof.Machine Sys2Proof.Safety Sys2Proof.Spec

/-! ## Requests (R63 to R65) -/

theorem splitAtFirst_of_any_eq_false {α : Type} {p : α → Bool} {l : List α} (h : l.any p = false) :
    splitAtFirst p l = none := by
  cases hsplit : splitAtFirst p l with
  | none => rfl
  | some v =>
    obtain ⟨hany, -⟩ := any_and_eraseP_of_splitAtFirst (b := v.1) (x := v.2.1) (a := v.2.2) hsplit
    rw [h] at hany
    cases hany

/-- The first REFRESH job of the entry in the ROUTINE class is promoted (R64). -/
theorem promote_routine {q : SegId} {e : EntryId} {b a : List Job} {j : Job} {s : State}
    (hroutine : (queue q s).routine = b ++ j :: a) (hj : hasRef (.refresh e) j = true)
    (hbefore : b.any (hasRef (.refresh e)) = false) :
    promote q e s
      = (setQueue q
          { queue q s with urgent := (queue q s).urgent ++ [{ j with cls := .urgent }], routine := b ++ a } s, true) := by
  have hsplit := splitAtFirst_append_cons (after := a) (by simpa using hbefore) hj
  rw [promote, hroutine, hsplit]

/-- No REFRESH job of the entry in the ROUTINE class: the answer is whether there is one in the URGENT class (R64). -/
theorem promote_not_routine {q : SegId} {e : EntryId} {s : State}
    (h : (queue q s).routine.any (hasRef (.refresh e)) = false) :
    promote q e s = (s, (queue q s).urgent.any (hasRef (.refresh e))) := by
  rw [promote, splitAtFirst_of_any_eq_false h]

/-- Settles O14: the three requests, each in the words of its rule. -/
theorem requestsAtAQueue : Obligations.RequestsAtAQueue := by
  intro q s
  refine ⟨fun j => ?_, fun e b j a => promote_routine, fun e => promote_not_routine, fun r => ?_⟩
  · rw [requestAdmission_eq]
    exact ⟨rfl, rfl⟩
  · rw [removeJob_eq]
    exact ⟨rfl, rfl⟩

/-! ## The flush (R66) -/

/-- The FLUSHED completion of a job (R66). -/
def flushedCompletion (q : SegId) (j : Job) : Completion :=
  { ref := j.ref, tag := j.tag, seg := q, result := .flushed, bytes := [], acked := 0#6, received := 0#6
    attemptsUsed := 0#4 }

/-- FLUSHED has gone to the owner of each of these jobs: the slots of DIRECT jobs are DONE, the completions of entries' jobs
are in flight in the order of the jobs. -/
def flushReported (q : SegId) (jobs : List Job) (s : State) : State :=
  { s with
    reports := s.reports ++ (jobs.filter fun j => !isDirect j).map fun j => .completed (flushedCompletion q j)
    slots := tabulate 8 fun k =>
      if jobs.any (hasRef (.direct k)) = true then endedSlot .flushed 0#6 0#6 0#4 [] (slot k s) else slot k s
    flags := if jobs.any isDirect = true then s.flags ||| 0x020#13 else s.flags }

theorem flushReported_nil (q : SegId) (s : State) : flushReported q [] s = s := by
  have hslots : (tabulate 8 fun k => slot k s) = s.slots := getAt_ext fun k => getAt_tabulate 8 _ k
  simp only [flushReported, List.filter_nil, List.map_nil, List.append_nil, List.any_nil, Bool.false_eq_true, if_false,
    hslots]

theorem isDirect_iff (j : Job) : isDirect j = true ↔ ∃ k, j.ref = .direct k := by
  unfold isDirect
  cases j.ref <;> simp

/-- The job of an entry: its completion joins those in flight. -/
theorem reportFlushed_entry {q : SegId} {j : Job} {s : State} (h : isDirect j = false) :
    reportFlushed q s j = { s with reports := s.reports ++ [.completed (flushedCompletion q j)] } := by
  unfold isDirect at h
  unfold reportFlushed deliver
  cases href : j.ref with
  | direct k => rw [href] at h; cases h
  | refresh e => rw [flushedCompletion, href]; rfl
  | write e => rw [flushedCompletion, href]; rfl

/-- A slot that has ended takes the same end again: nothing changes. -/
theorem endedSlot_endedSlot (r : Result) (acked received : BitVec 6) (used : BitVec 4) (bytes : List Byte) (x : Slot) :
    endedSlot r acked received used bytes (endedSlot r acked received used bytes x)
      = endedSlot r acked received used bytes x := by
  have hdata : (endedSlot r acked received used bytes (endedSlot r acked received used bytes x)).data
      = (endedSlot r acked received used bytes x).data := getAt_ext fun i => by
    simp only [endedSlot, getAt_tabulate]
    split <;> rfl
  rw [endedSlot, Slot.mk.injEq]
  exact ⟨rfl, rfl, rfl, rfl, rfl, rfl, hdata, rfl, rfl, rfl, rfl, rfl, rfl⟩

/-- The job of a slot: the slot is DONE in the same event (R124). -/
theorem reportFlushed_slot {q : SegId} {j : Job} {k : SlotId} {s : State} (h : j.ref = .direct k) :
    reportFlushed q s j = noted 0x020#13 (modSlot k (endedSlot .flushed 0#6 0#6 0#4 []) s) := by
  rw [reportFlushed, deliver, h]
  rfl

/-- One job's report, and then those of the jobs behind it. -/
theorem flushReported_cons (q : SegId) (j : Job) (jobs : List Job) (s : State) :
    flushReported q jobs (reportFlushed q s j) = flushReported q (j :: jobs) s := by
  cases hdirect : isDirect j with
  | false =>
    have hother (k : SlotId) : hasRef (.direct k) j = false := Bool.eq_false_iff.2 fun h =>
      Bool.eq_false_iff.1 hdirect ((isDirect_iff j).2 ⟨k, by simpa [hasRef] using h⟩)
    have hslot (rs : List Report) (k : SlotId) : slot k { s with reports := rs } = slot k s := rfl
    rw [reportFlushed_entry hdirect]
    simp [flushReported, hslot, hdirect, hother]
  | true =>
    obtain ⟨k, href⟩ := (isDirect_iff j).1 hdirect
    have hslots : (tabulate 8 fun i =>
          if jobs.any (hasRef (.direct i)) = true then
            endedSlot .flushed 0#6 0#6 0#4 [] (slot i (modSlot k (endedSlot .flushed 0#6 0#6 0#4 []) s))
          else slot i (modSlot k (endedSlot .flushed 0#6 0#6 0#4 []) s))
        = tabulate 8 fun i =>
          if (j :: jobs).any (hasRef (.direct i)) = true then endedSlot .flushed 0#6 0#6 0#4 [] (slot i s)
          else slot i s := by
      refine getAt_ext fun i => ?_
      rw [getAt_tabulate, getAt_tabulate]
      by_cases hi : i = k
      · subst hi
        simp [hasRef, href, endedSlot_endedSlot]
      · simp [hasRef, href, slot_modSlot_ne _ _ _ hi, Ne.symm hi]
    have hflags : (if jobs.any isDirect = true then (s.flags ||| 0x020#13) ||| 0x020#13 else s.flags ||| 0x020#13)
        = if (j :: jobs).any isDirect = true then s.flags ||| 0x020#13 else s.flags := by
      simp [hdirect, BitVec.or_assoc]
    have hentries : (j :: jobs).filter (fun j => !isDirect j) = jobs.filter fun j => !isDirect j := by simp [hdirect]
    rw [reportFlushed_slot href]
    unfold flushReported
    rw [← hslots, ← hflags, hentries]
    rfl

/-- The reports of a flush, in queue order. -/
theorem foldl_reportFlushed (q : SegId) (jobs : List Job) (s : State) :
    jobs.foldl (reportFlushed q) s = flushReported q jobs s := by
  induction jobs generalizing s with
  | nil => exact (flushReported_nil q s).symm
  | cons j jobs ih => exact (ih _).trans (flushReported_cons q j jobs s)

/-- Settles O31: the queue is emptied, and its jobs are reported one after the other. -/
theorem flushReportsEveryJob : Obligations.FlushReportsEveryJob :=
  fun q s => foldl_reportFlushed q ((queue q s).urgent ++ (queue q s).routine) (setQueue q SegQueue.reset s)

/-! ## Selections (R68, R69, R123) -/

/-- The bytes a slot sends, by its kind (Table 7.2). -/
theorem slotSendCount_eq (k : Slot) :
    slotSendCount k = if k.kind = 0#3 ∨ k.kind = 2#3 then 0 else k.writeCount.toNat := by
  unfold slotSendCount
  split
  · next h => rw [if_pos (.inl (BitVec.eq_of_toNat_eq h))]
  · next h => rw [if_pos (.inr (BitVec.eq_of_toNat_eq h))]
  · next h0 h2 =>
    rw [if_neg]
    rintro (h | h)
    · exact h0 (by rw [h]; rfl)
    · exact h2 (by rw [h]; rfl)

/-- The job a selection takes becomes the active job, and its owner learns of it: a slot in the same event (R68, R123). -/
def selectedFrom (q : SegId) (j : Job) (rest : SegQueue) (s : State) : State :=
  let held (frame : FrameInUse) (started : Bool) : Option ActiveJob :=
    some { job := { j with attempts := 0#3 }, frame := frame, started := started, phase := .due, last := none
           abortPending := false }
  match j.ref with
  | .refresh e =>
    send (.started (.refresh e)) (modCtl q (fun c => { c with active := held .refreshRead false }) (setQueue q rest s))
  | .write e =>
    send (.started (.write e)) (modCtl q (fun c => { c with active := held .writeFrame false }) (setQueue q rest s))
  | .direct k =>
    modSlot k (fun x => { x with state := .active })
      (modCtl q (fun c =>
        { c with
          active := held .slotFrame true
          tx := fill 32 ((slot k s).data.toList.take
            (if (slot k s).kind = 0#3 ∨ (slot k s).kind = 2#3 then 0 else (slot k s).writeCount.toNat)) })
        (setQueue q rest s))

theorem modCtl_modSlot (q : SegId) (f : Controller → Controller) (k : SlotId) (g : Slot → Slot) (s : State) :
    modCtl q f (modSlot k g s) = modSlot k g (modCtl q f s) := rfl

/-- A selection in the words of R68 and R123. -/
theorem select_of_arbiter {q : SegId} {j : Job} {rest : SegQueue} {s : State} (h : arbiter (queue q s) = some (j, rest)) :
    select q s = selectedFrom q j rest s := by
  unfold select selectedFrom reportStart selectedJob firstFrame startsAtOnce
  rw [h]
  dsimp only
  cases j.ref with
  | refresh e => rfl
  | write e => rfl
  | direct k =>
    dsimp only
    rw [slotSendCount_eq, modCtl_modSlot, modCtl_modCtl]
    exact congrArg (modSlot k _) (modCtl_congr rfl)

theorem exec_selection {q : SegId} {s : State} (hs : s.inReset = false) :
    exec (.selection q) s = .next (if (ctl q s).state = .idle ∧ (ctl q s).active = none then select q s else s) :=
  congrArg Host.Outcome.next (outOfReset_released hs)

/-- Settles O35: the rows of Table 4.4 are those of the arbiter, and each makes the selection of R68 and R123. -/
theorem selectionFollowsTheArbiter : Obligations.SelectionFollowsTheArbiter := by
  intro q s hs
  have htaken {j : Job} {rest : SegQueue} (h : arbiter (queue q s) = some (j, rest)) := select_of_arbiter h
  dsimp only
  refine ⟨fun hu hr => ?_, fun j js hu hr => ?_, fun j js hu hr hn => ?_, fun j js hu hr hn => ?_, fun j js hu hr => ?_,
    fun hidle hjob => ?_, fun h => ?_⟩
  · rw [select, arbiter, hu, hr]
  · exact htaken (by rw [arbiter, hu, hr])
  · obtain ⟨r, rs, hrs⟩ := List.exists_cons_of_ne_nil hr
    refine htaken ?_
    rw [arbiter, hu, hrs]
    exact if_pos hn
  · obtain ⟨u, us, hus⟩ := List.exists_cons_of_ne_nil hu
    refine htaken ?_
    rw [arbiter, hus, hr]
    exact if_neg (Nat.not_lt.2 hn)
  · exact htaken (by rw [arbiter, hu, hr])
  · rw [exec_selection hs, if_pos ⟨hidle, hjob⟩]
  · rw [exec_selection hs, if_neg]
    rintro ⟨hidle, hjob⟩
    exact h.elim (· hidle) (· hjob)

/-! ## The busy limit (R98) -/

/-- The expiry of a busy wait that has lasted the busy limit. -/
theorem exec_busyLimitExpiry {q : SegId} {since : Word} {s : State} (hs : s.inReset = false)
    (hwait : (ctl q s).busySince = some since) :
    let s1 := modCtl q (fun c => { c with busySince := none }) s
    exec (.busyLimitExpiry q) s
      = .next (if foreignNow (ctl q s) ∧ passed since (ctl q s).cfg.busyLimit.toNat s then
          if (ctl q s).active = none then
            if occupancy (queue q s) = 0 then s1 else busBusy q (select q s1)
          else busBusy q s1
        else s) := by
  refine congrArg Host.Outcome.next ((outOfReset_released hs).trans ?_)
  simp only [busyLimitExpiryEvent, hwait, inForeignFrame_iff, elapsed_iff]

/-- Settles O43: with a held job, with one to select, with none, and before the limit. -/
theorem busyLimitEndsTheAttempt : Obligations.BusyLimitEndsTheAttempt := by
  intro q since s hs
  dsimp only
  refine ⟨fun ⟨hwait, hlimit⟩ hjob => ?_, fun ⟨hwait, hlimit⟩ hjob hqueue => ?_,
    fun ⟨hwait, hlimit⟩ hjob hqueue => ?_, fun hwait => ?_, fun hwait hnot => ?_⟩
  · rw [exec_busyLimitExpiry hs hwait, if_pos hlimit, if_neg hjob]
    rfl
  · rw [exec_busyLimitExpiry hs hwait, if_pos hlimit, if_pos hjob, if_neg hqueue]
    rfl
  · rw [exec_busyLimitExpiry hs hwait, if_pos hlimit, if_pos hjob, if_pos hqueue]
  · refine congrArg Host.Outcome.next ((outOfReset_released hs).trans ?_)
    rw [busyLimitExpiryEvent, hwait]
  · rw [exec_busyLimitExpiry hs hwait, if_neg fun h => hnot h.2]

end Sys2Proof.Proofs
end

section
/-! Bits of a byte in wire order (R80, R81): the byte in progress bit by bit, as the statements say it. -/

namespace Sys2Proof.Proofs

open Sys2Proof.Machine Sys2Proof.Safety Sys2Proof.Spec

theorem byte_eq_of_wireBit {b d : Byte} (h : ∀ i, i < 8 → wireBit b i = wireBit d i) : b = d :=
  BitVec.eq_of_getLsbD_eq fun j hj => by
    have hbit := h (7 - j) (by omega)
    rwa [wireBit, wireBit, Nat.sub_sub_self (by omega)] at hbit

/-- The mask of the first `n` bits in wire order. -/
theorem wireBit_mask (n : Nat) {i : Nat} (hi : i < 8) : wireBit (0xFF#8 <<< (8 - n)) i = decide (i < n) := by
  have hones : (0xFF#8 : Byte) = BitVec.allOnes 8 := by decide
  rw [wireBit, hones, BitVec.getLsbD_shiftLeft, BitVec.getLsbD_allOnes, Bool.eq_iff_iff]
  simp only [Bool.and_eq_true, Bool.not_eq_true', decide_eq_true_eq, decide_eq_false_iff_not]
  omega

/-- The first bits of a byte are kept, those after them are 0. -/
theorem wireBit_topBits (n : Nat) (b : Byte) {i : Nat} (hi : i < 8) :
    wireBit (topBits n b) i = (wireBit b i && decide (i < n)) := by
  rw [← wireBit_mask n hi]
  exact BitVec.getLsbD_and

/-- A byte completed from the wire: the bits kept stand, the others are those found (R81). -/
theorem wireBit_completedByte (n : Nat) (kept b : Byte) {i : Nat} (hi : i < 8) :
    wireBit (completedByte n kept b) i = if i < n then wireBit kept i else wireBit b i := by
  have hpos : 7 - i < 8 := by omega
  have hmask := wireBit_mask n hi
  have hkept := wireBit_topBits n kept hi
  unfold wireBit at hmask hkept ⊢
  rw [completedByte, BitVec.getLsbD_or, BitVec.getLsbD_and, BitVec.getLsbD_not, hkept, hmask]
  by_cases hn : i < n <;> simp only [hn, hpos, decide_true, decide_false, Bool.and_true, Bool.and_false,
    Bool.not_true, Bool.not_false, Bool.or_false, Bool.false_or, if_true, if_false]

/-- The bits a report gives, 0 beyond them. -/
theorem wireBit_byteOfBits (bits : List Bool) {i : Nat} (hi : i < 8) :
    wireBit (byteOfBits bits) i = bits.getD i false := by
  have hlen : ((bits ++ List.replicate 8 false).take 8).length = 8 := by simp
  have hget : ((bits ++ List.replicate 8 false).take 8).getD i false = bits.getD i false := by
    rw [List.getD_eq_getElem?_getD, List.getElem?_take_of_lt hi]
    by_cases hb : i < bits.length
    · rw [List.getElem?_append_left hb, List.getD_eq_getElem?_getD]
    · have hb' : bits.length ≤ i := Nat.le_of_not_lt hb
      rw [List.getElem?_append_right hb', List.getElem?_replicate, List.getD_eq_default _ _ hb']
      split <;> rfl
  rw [wireBit, byteOfBits, BitVec.getLsbD_setWidth, BitVec.getLsbD_ofBoolListBE, hlen, Nat.sub_sub_self (by omega), hget]
  simp only [show 7 - i < 8 by omega, decide_true, Bool.true_and]

theorem topBits_eq_leading (n : Nat) (b : Byte) : topBits n b = leading n b :=
  byte_eq_of_wireBit fun i hi => by
    rw [wireBit_topBits n b hi, wireBit, wireBit, leading, BitVec.getLsbD_shiftLeft, BitVec.getLsbD_ushiftRight]
    by_cases hn : i < n
    · have hback : 8 - n + (7 - i - (8 - n)) = 7 - i := by omega
      have hfirst : ¬ 7 - i < 8 - n := by omega
      have hpos : 7 - i < 8 := by omega
      simp only [hback, hn, hfirst, hpos, decide_true, decide_false, Bool.and_true, Bool.not_false, Bool.true_and]
    · have hfirst : 7 - i < 8 - n := by omega
      simp only [hn, hfirst, decide_true, decide_false, Bool.and_false, Bool.not_true, Bool.false_and]

end Sys2Proof.Proofs
end

section
/-! The shared operations of a controller's own frame in the words of the statements: the frame as the wire has given it, where
the part compares, a job's completion, the end of STOPPING, and one report of the lines. -/

namespace Sys2Proof.Proofs

open Sys2Proof.Machine Sys2Proof.Safety Sys2Proof.Spec

/-! ## The part's frame (R82 to R86, R116) -/

theorem frameElements_eq_partFrame (q : SegId) (s : State) : frameElements q s = partFrame q s := by
  unfold frameElements partFrame
  cases (ctl q s).active <;> rfl

theorem frameToEnd_eq_upToEnd (q : SegId) (s : State) : frameToEnd q s = upToEnd q (partFrame q s) s := by
  rw [frameToEnd_eq, frameElements_eq_partFrame]

theorem frameSoFar_eq_runOn (q : SegId) (wire : Traffic) (s : State) :
    frameSoFar q wire s = runOn q (partFrame q s) wire s := by
  rw [frameSoFar, frameToEnd_eq_upToEnd]
  rfl

theorem partFrame_of_active {q : SegId} {a : ActiveJob} {s : State} (ha : (ctl q s).active = some a) :
    partFrame q s = jobFrame a (ctl q s).tx s := by
  rw [partFrame, ha]

/-- The frame whose job a soft reset has dropped (R116). -/
theorem partFrame_of_no_job {q : SegId} {s : State} (ha : (ctl q s).active = none) :
    partFrame q s = (ctl q s).dropped := by
  rw [partFrame, ha]

theorem sentElementByte_eq_outByte (e : Element) (crc : Byte) : sentElementByte e crc = outByte e crc := by
  cases e <;> rfl

/-! ## Arbitration (R81) -/

/-- The points at which the part compares, in the words of R81. -/
theorem comparesAt_iff (q : SegId) (wire : Traffic) (p : LossPoint) (s : State) :
    comparesAt (frameToEnd q s) (frameSoFar q wire s) (bitsPassed (ctl q s) wire) p = true
      ↔ Compares q (partFrame q s) wire p s := by
  have hpassed (n : Nat) : (wire = noTraffic → (ctl q s).bitCount ≤ n) ↔ bitsPassed (ctl q s) wire ≤ n := by
    unfold bitsPassed
    by_cases h : wire = noTraffic <;> simp [h]
  have hnone : (wire = noTraffic → (ctl q s).bitCount = 0) ↔ bitsPassed (ctl q s) wire = 0 := by
    simpa only [Nat.le_zero] using hpassed 0
  rw [frameToEnd_eq_upToEnd, frameSoFar_eq_runOn]
  unfold Compares
  dsimp only
  generalize runOn q (partFrame q s) wire s = r
  cases p with
  | bit n =>
    simp only [hpassed]
    unfold comparesAt
    cases hr : r.progress with
    | cut e =>
      dsimp only
      rw [sentElementByte_eq_outByte]
      cases hb : outByte e r.crc with
      | none => simp [hb]
      | some b => simp [hb, wireBit, and_comm]
    | refused x => simp
    | whole b => simp
  | refusal =>
    unfold comparesAt
    cases hr : r.progress <;> simp [endsInRead]
  | release =>
    simp only [hnone]
    unfold comparesAt
    cases hr : r.progress with
    | cut e =>
      cases e with
      | address b again => cases again <;> simp
      | _ => simp
    | refused x => simp
    | whole b => simp

/-- A loss is sensed exactly where the part compares, while no clock-hold has reached the limit (R79, R81). -/
theorem lossSensed_iff (q : SegId) (wire : Traffic) (p : LossPoint) {s : State} (hheld : ¬ HeldTooLong q s) :
    lossSensed q wire p s = true ↔ Compares q (partFrame q s) wire p s := by
  rw [← comparesAt_iff, lossSensed, holdExpired_of_not hheld]
  simp

/-! ## Completions (R107) -/

theorem discardsBytes_iff (r : Result) :
    discardsBytes r = true ↔ (r = .lostArbitration ∨ r = .holdTimeout ∨ r = .lineStuck) := by
  simp [discardsBytes, or_assoc]

theorem completionBytes_eq (q : SegId) (a : ActiveJob) (o : FrameOutcome) (s : State) :
    completionBytes a o (ctl q s).tx s = carried q a o s := by
  unfold completionBytes carried
  simp only [discardsBytes_iff]
  cases a.job.ref <;> rfl

theorem deliver_eq (c : Completion) (s : State) : deliver c s = delivered c s := by
  unfold deliver delivered
  cases c.ref <;> rfl

theorem ctls_delivered (c : Completion) (s : State) : (delivered c s).ctls = s.ctls := by
  unfold delivered
  cases c.ref <;> rfl

/-- The active job completes: the completion goes to its owner and the controller lets go of the job (R107). -/
theorem completeJob_eq_finished {q : SegId} {a : ActiveJob} {s : State} (o : FrameOutcome) (used : BitVec 4)
    (ha : (ctl q s).active = some a) : completeJob q o used s = finished q a o used s := by
  unfold completeJob finished
  rw [ha]
  dsimp only
  rw [completionBytes_eq, deliver_eq, modCtl, ctl, ctls_delivered]
  rfl

theorem completeAttempt_eq_finished {q : SegId} {a : ActiveJob} {s : State} (o : FrameOutcome)
    (ha : (ctl q s).active = some a) : completeAttempt q o s = finished q a o (usedBy a) s := by
  rw [completeAttempt, ha]
  exact completeJob_eq_finished o _ ha

/-! ## The end of STOPPING (R112, R116, R151) -/

theorem emptyQueue_eq_emptied (q : SegId) (s : State) : emptyQueue q s = emptied q s := by
  have hslots : (fun k => if ((queue q s).urgent ++ (queue q s).routine).any (hasRef (.direct k)) = true then Slot.reset
        else slot k s)
      = fun k => if ∃ j ∈ (queue q s).urgent ++ (queue q s).routine, j.ref = .direct k then Slot.reset else slot k s :=
    funext fun k => if_congr (by simp only [List.any_eq_true, hasRef, beq_iff_eq]) rfl rfl
  unfold emptyQueue emptied
  rw [hslots]
  rfl

theorem checkResettingEnd_eq_resetDone {s : State} (h : s.resetting = true) : checkResettingEnd s = resetDone s := by
  have hall : ((indices 8).all fun q => (ctl q s).state == .offline) = true ↔ ∀ p, (ctl p s).state = .offline := by
    simp [mem_indices]
  unfold checkResettingEnd resetDone
  simp only [h, hall, true_and]
  rfl

theorem endStopping_eq_stopped (q : SegId) (s : State) : endStopping q s = stopped q s := by
  unfold endStopping stopped
  dsimp only
  by_cases h : s.resetting = true ∧ Delivery.controller q ∉ deliveriesLeft s
  · rw [if_pos (resetReached_iff.2 h), if_pos h, emptyQueue_eq_emptied,
      checkResettingEnd_eq_resetDone (s := emptied q (modCtl q offlineCtl s)) h.1]
    rfl
  · rw [if_neg (mt resetReached_iff.1 h), if_neg h]
    rfl

/-- What the signalling of the segment was before, STOPPING ends all the same (R92, R112). -/
theorem stopped_modCtl {q : SegId} {f : Controller → Controller} {s : State} (h : offline (f (ctl q s)) = offline (ctl q s)) :
    stopped q (modCtl q f s) = stopped q s := by
  have hs1 : modCtl q offline (modCtl q f s) = modCtl q offline s := by
    rw [modCtl_modCtl]
    exact modCtl_congr h
  unfold stopped
  rw [hs1]
  rfl

/-- After a completion in STOPPING the controller is OFFLINE (R107, R113). -/
theorem afterCompletion_of_stopping {q : SegId} {s : State} (h : (ctl q s).state = .stopping) :
    afterCompletion q s = stopped q s := by
  rw [← endStopping_eq_stopped, afterCompletion, h]

/-! ## Reports of the lines (log entry 13) -/

/-- A tick with one report: the report is taken at its segment's controller, and the timebase advances (R27). -/
theorem exec_tick_report {w : LineReport} {s : State} {f : Controller → Controller} (hs : s.inReset = false)
    (h : takeLineReport s w = modCtl w.seg f s) :
    exec (.timebaseTick [w]) s = .next { modCtl w.seg f s with timebase := s.timebase + 1#32 } := by
  refine congrArg Host.Outcome.next ((outOfReset_released hs).trans ?_)
  have hpass : linesPass [w] s = modCtl w.seg f s := h
  rw [tick, hpass]
  rfl

/-- With nothing of the part's own on the wire a report goes to the reception, or to the foreign byte that is sampled (R81,
R91). -/
theorem takeLineReport_offWire {w : LineReport} {s : State}
    (hown : ∀ t, (ctl w.seg s).own ≠ .frame t ∧ (ctl w.seg s).own ≠ .stopAttempt t) :
    ((ctl w.seg s).state = .receiving → takeLineReport s w = receptionAdvances w s)
      ∧ ((ctl w.seg s).state = .foreign → (ctl w.seg s).addressExpected = true ∨ (ctl w.seg s).bitCount ≠ 0 →
          takeLineReport s w = observedByteAdvances w s) := by
  unfold takeLineReport
  cases h : (ctl w.seg s).own with
  | frame t => exact absurd h (hown t).1
  | stopAttempt t => exact absurd h (hown t).2
  | quiet => exact ⟨fun hstate => by simp only [hstate], fun hstate hbyte => by simp only [hstate, if_pos hbyte]⟩
  | startWait t => exact ⟨fun hstate => by simp only [hstate], fun hstate hbyte => by simp only [hstate, if_pos hbyte]⟩

end Sys2Proof.Proofs
end

section
/-! How a frame runs against what the wire gave (R82, R83, R84, R86), the data line in its byte in progress (R78), and the
check code. -/

namespace Sys2Proof.Proofs

open Sys2Proof.Machine Sys2Proof.Safety Sys2Proof.Spec

/-! ## Bytes the part sends (R83) -/

/-- The elements sent have all been acknowledged. -/
def allAcknowledged (sent : List Element) (r : FrameRun) : FrameRun :=
  { r with
    acked := r.acked + (sent.filter isSentData).length, passed := r.passed + sent.length
    crc := (sent.filterMap sentByte).foldl crcByte r.crc }

theorem allAcknowledged_append (before sent : List Element) (r : FrameRun) :
    allAcknowledged sent (allAcknowledged before r) = allAcknowledged (before ++ sent) r := by
  simp [allAcknowledged, Nat.add_assoc]

theorem exists_sentElementByte {e : Element} (h : isSent e = true) (crc : Byte) :
    ∃ b, sentElementByte e crc = some b := by
  cases e <;> simp [isSent, sentElementByte] at h ⊢

theorem sentElementByte_of_read {e : Element} (h : isSent e = false) (crc : Byte) : sentElementByte e crc = none := by
  cases e <;> simp [isSent, sentElementByte] at h ⊢

theorem pass_acknowledged {e : Element} {b : Byte} {r : FrameRun} (h : sentElementByte e r.crc = some b) :
    (r.pass e b).acknowledged e = allAcknowledged [e] r := by
  cases e <;> cases h <;> rfl

/-- A byte sent and refused: it has passed, and the frame ends with the result of Table 5.1. -/
theorem pass_refused {e : Element} {b : Byte} {r : FrameRun} (h : sentElementByte e r.crc = some b) :
    { r.pass e b with progress := .refused (refusalResult e) }
      = { r with
          progress := .refused (refusedAs e), passed := r.passed + 1, crc := ([e].filterMap sentByte).foldl crcByte r.crc } := by
  have hresult : refusalResult e = refusedAs e := by
    cases e with
    | address b again => cases again <;> rfl
    | _ => rfl
  rw [hresult]
  cases e <;> cases h <;> rfl

/-- A frame passes over the elements sent and acknowledged. -/
theorem runElements_sent {sent : List Element} (rest : List Element) (as : List Bool) (bs : List Byte) {r : FrameRun}
    (h : sent.all isSent = true) :
    runElements (sent ++ rest) { acks := List.replicate sent.length true ++ as, reads := bs } r
      = runElements rest { acks := as, reads := bs } (allAcknowledged sent r) := by
  induction sent generalizing r with
  | nil => rfl
  | cons e sent ih =>
    obtain ⟨he, hsent⟩ := Bool.and_eq_true_iff.1 ((List.all_cons ..).symm.trans h)
    obtain ⟨b, hb⟩ := exists_sentElementByte he r.crc
    rw [← List.singleton_append, ← allAcknowledged_append, ← ih hsent, ← pass_acknowledged hb, List.append_assoc,
      List.singleton_append, runElements, hb]
    rfl

/-! ## Bytes the part reads (R82) -/

/-- Data bytes have been read, and given these acknowledges. -/
def dataRead (data : List Byte) (acks : List Bool) (r : FrameRun) : FrameRun :=
  { r with
    received := r.received ++ data, given := r.given ++ acks, passed := r.passed + data.length
    crc := data.foldl crcByte r.crc }

theorem dataRead_nil (r : FrameRun) : dataRead [] [] r = r := by simp [dataRead]

theorem dataRead_append (data more : List Byte) (acks after : List Bool) (r : FrameRun) :
    dataRead more after (dataRead data acks r) = dataRead (data ++ more) (acks ++ after) r := by
  simp [dataRead, Nat.add_assoc]

/-- Data bytes before another element are all given ACK. -/
theorem runElements_readData (data : List Byte) {rest : List Element} (as : List Bool) (bs : List Byte) {r : FrameRun}
    (h : rest ≠ []) :
    runElements (List.replicate data.length .readData ++ rest) { acks := as, reads := data ++ bs } r
      = runElements rest { acks := as, reads := bs } (dataRead data (List.replicate data.length true) r) := by
  induction data generalizing r with
  | nil => exact congrArg _ (dataRead_nil r).symm
  | cons b data ih =>
    have hack : acknowledgesRead (List.replicate data.length .readData ++ rest) = true := by
      simp [acknowledgesRead, h]
    have hone := dataRead_append [b] data [true] (List.replicate data.length true) r
    rw [List.length_cons, List.replicate_succ, List.replicate_succ]
    refine Eq.trans ?_ (congrArg _ hone)
    rw [← ih, ← hack]
    rfl

/-- The acknowledges given to `n` bytes of which the last is the frame's last: a refusal for that one, ACK before it (R82). -/
theorem range_map_last (n : Nat) :
    (List.range (n + 1)).map (fun i => decide (i + 1 < n + 1)) = List.replicate n true ++ [false] := by
  have hbefore : (List.range n).map (fun i => decide (i + 1 < n + 1)) = List.replicate n true := by
    refine List.eq_replicate_iff.2 ⟨by rw [List.length_map, List.length_range], fun b hb => ?_⟩
    obtain ⟨i, hi, rfl⟩ := List.mem_map.1 hb
    exact decide_eq_true (Nat.succ_lt_succ (List.mem_range.1 hi))
  rw [List.range_succ, List.map_append, hbefore]
  simp

/-- Data bytes that end the frame: the last is refused. -/
theorem runElements_readData_end (data : List Byte) (as : List Bool) (r : FrameRun) :
    runElements (List.replicate data.length .readData) { acks := as, reads := data } r
      = dataRead data ((List.range data.length).map fun i => decide (i + 1 < data.length)) r := by
  rcases List.eq_nil_or_concat data with rfl | ⟨init, last, rfl⟩
  · exact (dataRead_nil r).symm
  · have hrun := runElements_readData init (rest := [.readData]) as [last] (r := r) (List.cons_ne_nil _ _)
    rw [List.concat_eq_append, List.length_append, List.length_singleton, range_map_last, List.replicate_succ', hrun]
    exact dataRead_append init [last] (List.replicate init.length true) [false] r

/-- Data bytes and the check byte: it is refused, and compared with the running value (R86). -/
theorem runElements_readCheck_end (data : List Byte) (check : Byte) (as : List Bool) (r : FrameRun) :
    runElements (List.replicate data.length .readData ++ [.readCheck]) { acks := as, reads := data ++ [check] } r
      = { dataRead data (List.replicate data.length true) r with
          progress := .whole (check == data.foldl crcByte r.crc), passed := r.passed + (data.length + 1)
          given := r.given ++ (List.replicate data.length true ++ [false]) } := by
  rw [runElements_readData data as [check] (List.cons_ne_nil _ _)]
  simp only [dataRead, ← Nat.add_assoc, ← List.append_assoc]
  rfl

/-! ## Outcomes of a frame -/

/-- R82, R83, R86: every byte sent acknowledged, the frame runs to its end. -/
theorem runFrame_whole {sent : List Element} (data : List Byte) (check : Option Byte) (h : sent.all isSent = true) :
    let els := sent ++ List.replicate data.length .readData ++ if check = none then [] else [.readCheck]
    let crc := (sent.filterMap sentByte ++ data).foldl crcByte 0#8
    runFrame els { acks := List.replicate sent.length true, reads := data ++ check.toList }
      = { progress := .whole (match check with | none => true | some b => b == crc)
          acked := (sent.filter isSentData).length, received := data, passed := els.length, crc := crc
          given := (List.range (data ++ check.toList).length).map fun i =>
            decide (i + 1 < (data ++ check.toList).length) } := by
  have hsent (rest : List Element) (bs : List Byte) := runElements_sent rest [] bs (r := .start) h
  simp only [List.append_nil] at hsent
  dsimp only
  rw [List.append_assoc, runFrame, hsent]
  cases check with
  | none =>
    rw [if_pos rfl, Option.toList_none, List.append_nil, List.append_nil, runElements_readData_end]
    simp [dataRead, allAcknowledged, FrameRun.start]
  | some b =>
    rw [if_neg (Option.some_ne_none b), Option.toList_some, runElements_readCheck_end, List.length_append,
      List.length_singleton, range_map_last]
    simp [dataRead, allAcknowledged, FrameRun.start]

/-- R83, R84: a byte refused ends the frame. -/
theorem runFrame_refused {before : List Element} (after : List Element) {e : Element} (as : List Bool) (bs : List Byte)
    (h : before.all isSent = true) (he : isSent e = true) :
    runFrame (before ++ e :: after) { acks := List.replicate before.length true ++ false :: as, reads := bs }
      = { progress := .refused (refusedAs e), acked := (before.filter isSentData).length, received := []
          given := [], passed := before.length + 1
          crc := (before ++ [e]).filterMap sentByte |>.foldl crcByte 0#8 } := by
  obtain ⟨b, hb⟩ := exists_sentElementByte he (allAcknowledged before .start).crc
  rw [runFrame, runElements_sent _ _ _ h, runElements, hb]
  refine (pass_refused hb).trans ?_
  simp [allAcknowledged, FrameRun.start]

/-- A frame that has not come to its end stands before a byte to be sent, the bytes before it acknowledged. -/
theorem runFrame_cut_sent {before : List Element} (after : List Element) {e : Element}
    (h : before.all isSent = true) (he : isSent e = true) :
    runFrame (before ++ e :: after) { acks := List.replicate before.length true, reads := [] }
      = { progress := .cut e, acked := (before.filter isSentData).length, received := [], given := []
          passed := before.length, crc := (before.filterMap sentByte).foldl crcByte 0#8 } := by
  obtain ⟨b, hb⟩ := exists_sentElementByte he (allAcknowledged before .start).crc
  have hsent := runElements_sent (e :: after) [] [] (r := .start) h
  rw [List.append_nil] at hsent
  rw [runFrame, hsent, runElements, hb]
  simp [allAcknowledged, FrameRun.start]

/-- A frame that has not come to its end stands before a byte to be read, the bytes read before it given ACK. -/
theorem runFrame_cut_read {sent : List Element} (after : List Element) (data : List Byte) {e : Element}
    (h : sent.all isSent = true) (he : isSent e = false) :
    runFrame (sent ++ List.replicate data.length .readData ++ e :: after)
        { acks := List.replicate sent.length true, reads := data }
      = { progress := .cut e, acked := (sent.filter isSentData).length, received := data
          given := List.replicate data.length true, passed := sent.length + data.length
          crc := (sent.filterMap sentByte ++ data).foldl crcByte 0#8 } := by
  have hsent := runElements_sent (List.replicate data.length .readData ++ e :: after) [] data (r := .start) h
  have hread := runElements_readData data (rest := e :: after) [] [] (r := allAcknowledged sent .start) (List.cons_ne_nil _ _)
  rw [List.append_nil] at hsent hread
  rw [List.append_assoc, runFrame, hsent, hread, runElements, sentElementByte_of_read he]
  simp [dataRead, allAcknowledged, FrameRun.start]

/-! ## The data line in the byte in progress (R78) -/

theorem driven_of_frame {q : SegId} {since : Word} {s : State} (hown : (ctl q s).own = .frame since)
    (hstate : (ctl q s).state = .active ∨ (ctl q s).state = .stopping) :
    driven q s
      = (.asInitiator,
          frameDataLine (upToEnd q (partFrame q s) s) (runOn q (partFrame q s) noTraffic s) (ctl q s).bitCount) := by
  rw [← frameToEnd_eq_upToEnd, ← frameSoFar_eq_runOn]
  rcases hstate with h | h <;> simp only [driven, h, hown]

section
variable {r : FrameRun} {e : Element} (els : List Element) {n : Nat} (hcut : r.progress = .cut e)
include hcut

/-- A bit of a byte the part sends, its start or repeated start apart. -/
theorem frameDataLine_sent {b : Byte} (hb : outByte e r.crc = some b) (hn : n < 8) (hstart : n ≠ 0 ∨ ∀ x y, e ≠ .address x y) :
    frameDataLine els r n = if wireBit b n = true then .released else .low := by
  have hplain : ¬ (n = 0 ∧ isAddress e = true) := fun ⟨h0, haddress⟩ => by
    rcases hstart with h | h
    · exact h h0
    · cases e <;> simp [isAddress] at haddress
      exact h _ _ rfl
  have hlow : (n < 8 ∧ b.getLsbD (7 - n) = false) ↔ ¬ wireBit b n = true := by simp [hn, wireBit]
  simp only [frameDataLine, hcut, sentElementByte_eq_outByte, hb, if_neg hplain, hlow, ite_not]

/-- The target's acknowledge: the part has released the line. -/
theorem frameDataLine_acknowledge (hb : (outByte e r.crc).isSome = true) : frameDataLine els r 8 = .released := by
  obtain ⟨b, hb⟩ := Option.isSome_iff_exists.1 hb
  simp [frameDataLine, hcut, sentElementByte_eq_outByte, hb]

/-- A byte the part reads: low in the acknowledge bit alone, and not at the frame's last byte (R82). -/
theorem frameDataLine_read (hb : outByte e r.crc = none) :
    frameDataLine els r n = if n = 8 ∧ r.passed + 1 < els.length then .low else .released := by
  have hack : acknowledgesRead (els.drop (r.passed + 1)) = true ↔ r.passed + 1 < els.length := by
    simp [acknowledgesRead]
  simp only [frameDataLine, hcut, sentElementByte_eq_outByte, hb, hack]

end

/-! ## The check code (R86) -/

theorem crcShift_eq_crcStep (v : Byte) : crcShift v = crcStep v := by
  rw [crcShift, crcStep, BitVec.msb_eq_getLsbD_last]

/-- Settles O38: the run over the elements sent, then over those read; the data line by the element in progress. -/
theorem frameOutcomesAndCheckCode : Obligations.FrameOutcomesAndCheckCode := by
  refine ⟨fun sent data check h => runFrame_whole data check h,
    fun before after e as bs h he => runFrame_refused after as bs h he,
    fun before after e h he => runFrame_cut_sent after h he,
    fun sent after data e h he => runFrame_cut_read after data h he, fun q since e s hown hstate => ?_, fun v b => ?_⟩
  · dsimp only
    intro hcut
    rw [driven_of_frame hown hstate]
    refine ⟨fun b hb hn hstart => ?_, fun hb hn => ?_, fun hb => ?_⟩
    · rw [frameDataLine_sent _ hcut hb hn hstart]
    · rw [hn, frameDataLine_acknowledge _ hcut hb]
    · rw [frameDataLine_read _ hcut hb]
  · simp only [crcByte, crcShift_eq_crcStep]

end Sys2Proof.Proofs
end

section
/-! Early ends and arbitration losses of the part's frame (R81, R85, R101, R113, R115, R116). -/

namespace Sys2Proof.Proofs

open Sys2Proof.Machine Sys2Proof.Safety Sys2Proof.Spec

/-! ## Early ends (R85, R115) -/

section
variable {q : SegId} {wire : Traffic} {since : Word} {s : State} (hs : s.inReset = false)
  (hown : (ctl q s).own = .frame since)
include hs hown

/-- FRAME_ENDED_EARLY where it does not take place: without a request, and within the byte in progress. -/
theorem exec_frameEndedEarly_none
    (h : (ctl q s).earlyEnd = none ∨ ∃ x, (runOn q (partFrame q s) wire s).progress = .cut x) :
    exec (.frameEndedEarly q wire) s = .next s := by
  refine congrArg Host.Outcome.next ((outOfReset_released hs).trans ?_)
  simp only [frameEndedEarlyEvent, hown, frameSoFar_eq_runOn]
  rcases h with h | ⟨x, hx⟩
  · rw [if_neg (by simp [h])]
  · simp only [earlyResult, hx, ite_self]

variable (hheld : ¬ HeldTooLong q s)
include hheld

/-- A frame of a job that a pending request ends: its result is taken and the job completes. -/
theorem exec_frameEndedEarly_some {a : ActiveJob} {x : Result} (ha : (ctl q s).active = some a)
    (hearly : (ctl q s).earlyEnd ≠ none) (hx : earlyResult (runOn q (partFrame q s) wire s) = some x)
    (hok : x ≠ .ok) (hcheck : x ≠ .checkMismatch) :
    exec (.frameEndedEarly q wire) s
      = .next (takeResult q (outcomeOf (runOn q (partFrame q s) wire s) x)
          (completes q (outcomeOf (runOn q (partFrame q s) wire s) x)) (closed q (runOn q (partFrame q s) wire s) s)) := by
  have hgoOn (t : State) := continueAfter_final (q := q) (a := a)
    (o := outcomeOf (runOn q (partFrame q s) wire s) x) (s := t) hok hcheck
  refine congrArg Host.Outcome.next ((outOfReset_released hs).trans (Eq.trans ?_ (takeResult_congr (hgoOn _))))
  have htaken : (ctl q s).earlyEnd.isSome = true ∧ holdExpired (ctl q s) s = false :=
    ⟨Option.isSome_iff_ne_none.2 hearly, holdExpired_of_not hheld⟩
  simp only [frameEndedEarlyEvent, hown, frameSoFar_eq_runOn, if_pos htaken, hx, ha]
  rfl

/-! ## The frame whose job a soft reset has dropped (R116) -/

variable (ha : (ctl q s).active = none)
include ha

theorem exec_frameEndedEarly_dropped (hearly : (ctl q s).earlyEnd ≠ none)
    (h : ¬ ∃ x, (runOn q (partFrame q s) wire s).progress = .cut x) :
    exec (.frameEndedEarly q wire) s = .next (stopped q s) := by
  have htaken : (ctl q s).earlyEnd.isSome = true ∧ holdExpired (ctl q s) s = false :=
    ⟨Option.isSome_iff_ne_none.2 hearly, holdExpired_of_not hheld⟩
  refine congrArg Host.Outcome.next ((outOfReset_released hs).trans ?_)
  simp only [frameEndedEarlyEvent, hown, frameSoFar_eq_runOn, if_pos htaken, ha]
  cases hr : (runOn q (partFrame q s) wire s).progress with
  | cut e => exact absurd ⟨e, hr⟩ h
  | refused x => simp only [earlyResult, hr, endStopping_eq_stopped]
  | whole b => simp only [earlyResult, hr, endStopping_eq_stopped]

/-- FRAME_END of a dropped frame, by whether it has a result of its own. -/
theorem exec_frameEnd_dropped :
    exec (.frameEnd q wire) s
      = .next (if ownResult q (runOn q (partFrame q s) wire s) s = none then s else stopped q s) := by
  refine congrArg Host.Outcome.next ((outOfReset_released hs).trans ?_)
  simp only [frameEndEvent, hown, holdExpired_of_not hheld, frameSoFar_eq_runOn, ha, endStopping_eq_stopped]
  cases ownResult q (runOn q (partFrame q s) wire s) s <;> rfl

/-- ARBITRATION_LOSS in a dropped frame, by whether the part compares. -/
theorem exec_arbitrationLoss_dropped (p : LossPoint) [Decidable (Compares q (partFrame q s) wire p s)] :
    exec (.arbitrationLoss q wire p) s
      = .next (if Compares q (partFrame q s) wire p s then stopped q s else s) := by
  refine congrArg Host.Outcome.next ((outOfReset_released hs).trans ?_)
  simp only [arbitrationLossEvent, hown, lossSensed_iff q wire p hheld, ha, endStopping_eq_stopped]

end

/-- A frame has no result of its own within its bytes, nor at an early end that comes before its last boundary (R84, R85). -/
theorem ownResult_eq_none_iff (q : SegId) (r : FrameRun) (s : State) :
    ownResult q r s = none
      ↔ (∃ x, r.progress = .cut x)
        ∨ (∃ b, r.progress = .whole b) ∧ upToEnd q (partFrame q s) s ≠ partFrame q s := by
  rw [← frameToEnd_eq_upToEnd, ← frameElements_eq_partFrame]
  cases h : r.progress with
  | cut e => simp [ownResult, frameResult, h]
  | refused x => simp [ownResult, frameResult, h]
  | whole b => cases b <;> simp [ownResult, frameResult, h]

/-- Settles O40: the early end of a job's frame, and the three ends of a dropped one. -/
theorem earlyEndsAreAborted : Obligations.EarlyEndsAreAborted := by
  intro q wire since s hs hown hheld
  dsimp only
  refine ⟨fun a n ha hearly hwithin => ?_, exec_frameEndedEarly_none hs hown, fun n hearly => ?_, fun ha => ?_⟩
  · have hearly' : (ctl q s).earlyEnd ≠ none := by rw [hearly]; exact Option.some_ne_none n
    refine ⟨fun ⟨b, hb⟩ => ?_, fun x hx hlist => ?_⟩
    · exact exec_frameEndedEarly_some hs hown hheld ha hearly' (by rw [earlyResult, hb]) (by decide) (by decide)
    · have hfinal : x ≠ .ok ∧ x ≠ .checkMismatch := by rcases hlist with rfl | rfl | rfl <;> decide
      exact exec_frameEndedEarly_some hs hown hheld ha hearly' (by rw [earlyResult, hx]) hfinal.1 hfinal.2
  · rw [← frameSoFar_eq_runOn]
    exact passed_frameSoFar q wire n s hearly
  · have hend : ¬ ((∃ x, (runOn q (partFrame q s) wire s).progress = .refused x)
          ∨ (¬ ∃ x, (runOn q (partFrame q s) wire s).progress = .cut x)
            ∧ upToEnd q (partFrame q s) s = partFrame q s)
        ↔ ownResult q (runOn q (partFrame q s) wire s) s = none := by
      rw [ownResult_eq_none_iff]
      cases (runOn q (partFrame q s) wire s).progress <;> simp
    rw [← partFrame_of_no_job ha, exec_frameEnd_dropped hs hown hheld ha]
    refine ⟨fun n hearly hwithin => ?_, fun hended => ?_, fun hended => ?_, fun p => ?_⟩
    · exact exec_frameEndedEarly_dropped hs hown hheld ha (by rw [hearly]; exact Option.some_ne_none n) hwithin
    · rw [if_neg (mt hend.2 (not_not_intro hended))]
    · rw [if_pos (hend.1 hended)]
    · classical
      rw [exec_arbitrationLoss_dropped hs hown hheld ha]
      exact ⟨fun h => by rw [if_pos h], fun h => by rw [if_neg h]⟩

end Sys2Proof.Proofs
end

section
/-! A lost arbitration (R81, R101, R113) and the byte it leaves in FOREIGN. -/

namespace Sys2Proof.Proofs

open Sys2Proof.Machine Sys2Proof.Safety Sys2Proof.Spec

/-! ## What the loss leaves of its byte (R81) -/

theorem byteAtLoss_eq_keptBits (r : FrameRun) (p : LossPoint) : byteAtLoss r p = keptBits r p := by
  unfold byteAtLoss keptBits
  cases p with
  | bit n =>
    cases r.progress with
    | cut e => simp only [topBits_eq_leading, sentElementByte_eq_outByte]
    | refused x => rfl
    | whole b => rfl
  | refusal => rfl
  | release => rfl

theorem lossInAddress_eq_inAddress (r : FrameRun) (p : LossPoint) : lossInAddress r p = inAddress r p := by
  unfold lossInAddress inAddress
  cases p with
  | bit n =>
    cases r.progress with
    | cut e => cases e <;> rfl
    | refused x => rfl
    | whole b => rfl
  | refusal => rfl
  | release => rfl

/-- The controller that has lost its frame, and observes a foreign one. -/
def frameLost (r : FrameRun) (p : LossPoint) (c : Controller) : Controller :=
  { c with
    state := .foreign, bus := .busy, own := .quiet, earlyEnd := none, traffic := noTraffic, holdSince := none
    rx := fill 32 r.received, acksGiven := r.given, checkValue := r.crc, addressExpected := inAddress r p
    byteInProgress := (keptBits r p).1, bitCount := (keptBits r p).2 }

theorem loseFrame_eq (q : SegId) (r : FrameRun) (p : LossPoint) (s : State) :
    loseFrame q r p s = modCtl q (frameLost r p) s := by
  rw [loseFrame, enterForeign, modCtl_modCtl, byteAtLoss_eq_keptBits, lossInAddress_eq_inAddress]
  exact modCtl_congr rfl

/-- What the controller keeps of its job and its configuration while the loss is recorded and its frame given up. -/
theorem ctl_frameLost_recorded (q : SegId) (r : FrameRun) (p : LossPoint) (x : Result) (s : State) :
    let c := ctl q (modCtl q (frameLost r p) (modCtl q (fun c => { c with lastResult := x }) s))
    c.active = (ctl q s).active ∧ c.cfg = (ctl q s).cfg ∧ c.state = .foreign := by
  dsimp only
  rw [ctl_modCtl_same, ctl_modCtl_same]
  exact ⟨rfl, rfl, rfl⟩

/-! ## The retry decision of a loss (R101) -/

section
variable {q : SegId} {a : ActiveJob} {s : State} (o : FrameOutcome) (ha : (ctl q s).active = some a)
  (hstate : (ctl q s).state ≠ .stopping)
include ha hstate

theorem lossDecision_complete (h : ¬ a.job.attempts.toNat < (ctl q s).cfg.retryLimit.toNat) :
    lossDecision q o s = completes q o s := by
  have hdecision : retryDecision (ctl q s) a = .complete := by rw [retryDecision, if_neg hstate, if_neg h]
  simp only [lossDecision, ha, hdecision]
  rfl

theorem lossDecision_cancel (h : a.job.attempts.toNat < (ctl q s).cfg.retryLimit.toNat) (habort : a.abortPending = true) :
    lossDecision q o s = afterCompletion q (completeJob q (noFrame .cancelled) (usedBy a) s) := by
  have hdecision : retryDecision (ctl q s) a = .cancel := by rw [retryDecision, if_neg hstate, if_pos h, habort]; rfl
  simp only [lossDecision, ha, hdecision]
  rfl

/-- The job is held: its attempts are raised, its backoff waits for the foreign stop, and a busy wait begins. -/
theorem lossDecision_retry (h : a.job.attempts.toNat < (ctl q s).cfg.retryLimit.toNat) (habort : a.abortPending = false) :
    lossDecision q o s
      = modCtl q (fun c =>
          { c with
            busySince := some s.timebase
            active := some { a with
              job := { a.job with attempts := a.job.attempts + 1#3 }, last := some o, phase := .backoffPending } }) s := by
  have hdecision : retryDecision (ctl q s) a = .retry := by rw [retryDecision, if_neg hstate, if_pos h, habort]; rfl
  simp only [lossDecision, ha, hdecision]
  rw [countAttempt, modActive_of_active _ ha, modActive_of_active _ (by rw [ctl_modCtl_same]), modCtl_modCtl, beginBusyWait,
    modCtl_modCtl]
  exact modCtl_congr rfl

end

/-! ## The event ARBITRATION_LOSS -/

section
variable {q : SegId} {wire : Traffic} {p : LossPoint} {a : ActiveJob} {since : Word} {s : State} (hs : s.inReset = false)
  (hown : (ctl q s).own = .frame since) (ha : (ctl q s).active = some a) (hheld : ¬ HeldTooLong q s)
include hs hown ha hheld

theorem exec_arbitrationLoss_none (h : ¬ Compares q (jobFrame a (ctl q s).tx s) wire p s) :
    exec (.arbitrationLoss q wire p) s = .next s := by
  rw [← partFrame_of_active ha] at h
  refine congrArg Host.Outcome.next ((outOfReset_released hs).trans ?_)
  simp only [arbitrationLossEvent, hown, if_neg (mt (lossSensed_iff q wire p hheld).1 h)]

/-- LOST_ARBITRATION leaves the streak, so that the segment is not quarantined; the event goes on as R101 or R113 says. -/
theorem exec_arbitrationLoss_some (hstreak : (ctl q s).streak ≠ (ctl q s).cfg.threshold)
    (h : Compares q (jobFrame a (ctl q s).tx s) wire p s) :
    let o := outcomeOf (runOf q a wire s) .lostArbitration
    let recorded := modCtl q (fun c => { c with lastResult := .lostArbitration }) s
    exec (.arbitrationLoss q wire p) s
      = .next (if (ctl q s).state = .stopping then completes q o recorded
          else lossDecision q o (modCtl q (frameLost (runOf q a wire s) p) recorded)) := by
  intro o recorded
  rw [← partFrame_of_active ha] at h
  have htaken (goOn : State → State) : takeResult q o goOn s = goOn recorded := by
    have hcounted : ¬ ((ctl q recorded).streak = (ctl q recorded).cfg.threshold ∨ o.result = .segmentFault) := by
      rw [ctl_modCtl_same]
      exact not_or.2 ⟨hstreak, fun h => nomatch h⟩
    exact if_neg hcounted
  refine congrArg Host.Outcome.next ((outOfReset_released hs).trans ?_)
  simp only [arbitrationLossEvent, hown, if_pos ((lossSensed_iff q wire p hheld).2 h), ha, frameSoFar_of_active wire ha,
    loseFrame_eq]
  split
  · exact htaken _
  · exact htaken _

end

/-! ## The byte of the loss in FOREIGN (R81) -/

/-- A byte that the part observes, from the bits kept and those a tick has found. -/
theorem takeLineReport_observed {w : LineReport} {s : State}
    (hown : ∀ t, (ctl w.seg s).own ≠ .frame t ∧ (ctl w.seg s).own ≠ .stopAttempt t) (hstate : (ctl w.seg s).state = .foreign)
    (hbyte : (ctl w.seg s).addressExpected = true ∨ (ctl w.seg s).bitCount ≠ 0) (hbits : w.bits.length ≤ 8) :
    takeLineReport s w
      = modCtl w.seg (fun c =>
          { c with
            byteInProgress :=
              completedByte (ctl w.seg s).bitCount (ctl w.seg s).byteInProgress (byteOfBits w.bits)
            bitCount := max c.bitCount w.bits.length }) s := by
  rw [(takeLineReport_offWire hown).2 hstate hbyte, observedByteAdvances, Nat.min_eq_right hbits]
  exact modCtl_congr rfl

/-- A tick in FOREIGN: the bits kept stand, and those after them are the ones found. -/
theorem exec_tick_observed {q : SegId} {w : LineReport} {s : State} (hs : s.inReset = false) (hseg : w.seg = q)
    (hown : ∀ t, (ctl q s).own ≠ .frame t ∧ (ctl q s).own ≠ .stopAttempt t) (hstate : (ctl q s).state = .foreign)
    (hbyte : (ctl q s).addressExpected = true ∨ (ctl q s).bitCount ≠ 0) (hbits : w.bits.length ≤ 8) :
    ∃ d, exec (.timebaseTick [w]) s
        = .next
          { modCtl q (fun c => { c with byteInProgress := d, bitCount := max c.bitCount w.bits.length }) s with
            timebase := s.timebase + 1#32 }
      ∧ ∀ i, i < 8 → wireBit d i
          = if i < (ctl q s).bitCount then wireBit (ctl q s).byteInProgress i else w.bits.getD i false := by
  subst hseg
  refine ⟨_, exec_tick_report hs (takeLineReport_observed hown hstate hbyte hbits), fun i hi => ?_⟩
  rw [wireBit_completedByte _ _ _ hi, wireBit_byteOfBits _ hi]

/-- Settles O41: the result is recorded, then the loss by STOPPING and by the retry decision; and the byte it leaves. -/
theorem arbitrationLossBecomesForeign : Obligations.ArbitrationLossBecomesForeign := by
  refine ⟨fun q wire p a since s hs hown ha hstreak hheld => ?_, fun q w s hs hstate hown hbits hseg hlen => ?_⟩
  · have htaken := exec_arbitrationLoss_some (wire := wire) (p := p) hs hown ha hheld hstreak
    dsimp only at htaken ⊢
    obtain ⟨hactive, hcfg, hstate⟩ := ctl_frameLost_recorded q (runOf q a wire s) p .lostArbitration s
    rw [ha] at hactive
    have hforeign := hstate.trans_ne (show CtlState.foreign ≠ .stopping by decide)
    refine ⟨exec_arbitrationLoss_none hs hown ha hheld, fun hlost hstop => ?_, fun hlost hstop hbelow => ?_,
      fun hlost hstop hbelow habort => ?_, fun hlost hstop hbelow habort => ?_⟩
    · rw [htaken hlost, if_pos hstop]
    · rw [htaken hlost, if_neg hstop, lossDecision_complete _ hactive hforeign (by rwa [hcfg])]
      rfl
    · rw [htaken hlost, if_neg hstop, lossDecision_cancel _ hactive hforeign (by rwa [hcfg]) habort]
      rfl
    · rw [htaken hlost, if_neg hstop, lossDecision_retry _ hactive hforeign (by rwa [hcfg]) habort]
      rfl
  · have hquiet (t : Word) : (ctl q s).own ≠ .frame t ∧ (ctl q s).own ≠ .stopAttempt t := by
      rw [hown]
      exact ⟨(fun h => nomatch h), (fun h => nomatch h)⟩
    exact exec_tick_observed hs hseg hquiet hstate (.inr hbits) hlen

end Sys2Proof.Proofs
end

section
/-! What a tick finds of the part's frame, clock-holds that reach the hold limit, and the stop attempt (R79, R92, R106, R113,
R116). -/

namespace Sys2Proof.Proofs

open Sys2Proof.Machine Sys2Proof.Safety Sys2Proof.Spec

/-! ## A tick in a frame of the part (R79, R92) -/

theorem byteNow_sent {r : FrameRun} {e : Element} {x : Byte} {bits : List Bool} (hcut : r.progress = .cut e)
    (hx : outByte e r.crc = some x) (hbits : bits.length ≤ 8) : byteNow r bits = (leading bits.length x, bits.length) := by
  simp only [byteNow, hcut, sentElementByte_eq_outByte, hx, Nat.min_eq_right hbits, topBits_eq_leading]

theorem byteNow_read {r : FrameRun} {e : Element} {bits : List Bool} (hcut : r.progress = .cut e)
    (hx : outByte e r.crc = none) (hbits : bits.length ≤ 8) : byteNow r bits = (byteOfBits bits, bits.length) := by
  simp only [byteNow, hcut, sentElementByte_eq_outByte, hx, Nat.min_eq_right hbits]

/-- At its stop a frame has no byte in progress. -/
theorem byteNow_ended {r : FrameRun} (bits : List Bool) (h : ∀ e, r.progress ≠ .cut e) : byteNow r bits = (0#8, 0) := by
  unfold byteNow
  cases hr : r.progress with
  | cut e => exact absurd hr (h e)
  | refused x => rfl
  | whole b => rfl

theorem takeLineReport_frame {w : LineReport} {since : Word} {s : State} (hown : (ctl w.seg s).own = .frame since)
    (hheld : ¬ HeldTooLong w.seg s) :
    takeLineReport s w
      = modCtl w.seg (fun c =>
          { c with
            traffic := soFar w.seg w.traffic s, holdSince := if w.clockHeld = true then some s.timebase else none
            rx := if c.active = none then c.rx
              else fill 32 (runOn w.seg (partFrame w.seg s) w.traffic s).received
            acksGiven := (runOn w.seg (partFrame w.seg s) w.traffic s).given
            checkValue := (runOn w.seg (partFrame w.seg s) w.traffic s).crc
            byteInProgress := (byteNow (runOn w.seg (partFrame w.seg s) w.traffic s) w.bits).1
            bitCount := (byteNow (runOn w.seg (partFrame w.seg s) w.traffic s) w.bits).2 }) s := by
  simp only [takeLineReport, hown, holdExpired_of_not hheld, Bool.false_eq_true, if_false, frameAdvances, frameSoFar_eq_runOn]
  refine modCtl_congr ?_
  cases (ctl w.seg s).active <;> rfl

/-! ## HOLD_TIMEOUT (R79, R106) -/

/-- The stop attempt of R106: the data line is driven low, and the job held with the attempt's outcome. -/
theorem beginStopAttempt_eq (q : SegId) (o : FrameOutcome) (s : State) :
    beginStopAttempt q o s
      = modCtl q (fun c =>
          { c with
            own := .stopAttempt s.timebase, stopReleased := false, earlyEnd := none, traffic := noTraffic, holdSince := none
            byteInProgress := 0#8, bitCount := 0
            active := c.active.map fun a => { a with phase := .running, last := some o } }) s := by
  rw [beginStopAttempt, modActive, modCtl_modCtl]
  exact modCtl_congr rfl

section
variable {q : SegId} {since : Word} {s : State} (hs : s.inReset = false)
include hs

section
variable (hown : (ctl q s).own = .frame since)
include hown

theorem exec_holdTimeout_frame {a : ActiveJob} (ha : (ctl q s).active = some a) (hheld : HeldTooLong q s) :
    exec (.holdTimeout q noTraffic) s
      = .next (takeResult q (outcomeOf (runOf q a noTraffic s) .holdTimeout)
          (beginStopAttempt q (outcomeOf (runOf q a noTraffic s) .holdTimeout)) s) := by
  refine congrArg Host.Outcome.next ((outOfReset_released hs).trans ?_)
  simp only [holdTimeoutEvent, hown, (holdExpired_iff q s).2 hheld, and_self, if_true, ha, frameSoFar_of_active noTraffic ha]
  rfl

theorem exec_holdTimeout_dropped (ha : (ctl q s).active = none) (hheld : HeldTooLong q s) :
    exec (.holdTimeout q noTraffic) s = .next (stopped q s) := by
  refine congrArg Host.Outcome.next ((outOfReset_released hs).trans ?_)
  simp only [holdTimeoutEvent, hown, (holdExpired_iff q s).2 hheld, and_self, if_true, ha, endStopping_eq_stopped]

theorem exec_holdTimeout_none {wire : Traffic} (h : ¬ HeldTooLong q s ∨ wire ≠ noTraffic) :
    exec (.holdTimeout q wire) s = .next s := by
  have hnot : ¬ (holdExpired (ctl q s) s = true ∧ wire = noTraffic) := fun ⟨hexpired, hwire⟩ =>
    h.elim (· ((holdExpired_iff q s).1 hexpired)) (· hwire)
  refine congrArg Host.Outcome.next ((outOfReset_released hs).trans ?_)
  simp only [holdTimeoutEvent, hown, if_neg hnot]

/-- A clock-hold at its limit leaves no other end to the frame (R79). -/
theorem exec_ends_of_heldTooLong (hheld : HeldTooLong q s) (wire : Traffic) :
    exec (.frameEnd q wire) s = .next s ∧ exec (.frameEndedEarly q wire) s = .next s
      ∧ ∀ p, exec (.arbitrationLoss q wire p) s = .next s := by
  have hexpired := (holdExpired_iff q s).2 hheld
  refine ⟨congrArg Host.Outcome.next ((outOfReset_released hs).trans ?_),
    congrArg Host.Outcome.next ((outOfReset_released hs).trans ?_),
    fun p => congrArg Host.Outcome.next ((outOfReset_released hs).trans ?_)⟩
  · simp only [frameEndEvent, hown, hexpired, if_true]
  · simp only [frameEndedEarlyEvent, hown, hexpired, Bool.true_eq_false, and_false, if_false]
  · simp only [arbitrationLossEvent, hown, lossSensed, hexpired, Bool.not_true, Bool.and_false, Bool.false_eq_true, if_false]

end

/-- HOLD_TIMEOUT while a start waits for the clock line (R97, R106). -/
theorem exec_holdTimeout_startWait (wire : Traffic) (hown : (ctl q s).own = .startWait since) :
    exec (.holdTimeout q wire) s
      = .next (if passed since (ctl q s).cfg.holdLimit.toNat s then
          takeResult q (noFrame .holdTimeout) (beginStopAttempt q (noFrame .holdTimeout)) s
        else s) := by
  refine congrArg Host.Outcome.next ((outOfReset_released hs).trans ?_)
  simp only [holdTimeoutEvent, hown, elapsed_iff]
  rfl

/-! ## The stop attempt and its two ends (R106) -/

section
variable (hown : (ctl q s).own = .stopAttempt since)
include hown

/-- STOP_ATTEMPT_END, before the limit and at it. -/
theorem exec_stopAttemptEnd :
    exec (.stopAttemptEnd q) s
      = .next (if passed since (ctl q s).cfg.holdLimit.toNat s then s
        else afterCompletion q (modCtl q (fun c => { c with own := .quiet, bus := .free }) (completeHoldTimeout q s))) := by
  refine congrArg Host.Outcome.next ((outOfReset_released hs).trans ?_)
  simp only [stopAttemptEndEvent, hown, elapsed_iff]

/-- STOP_ATTEMPT_TIMEOUT, before the limit and at it. -/
theorem exec_stopAttemptTimeout (sense : RecoverySense) :
    exec (.stopAttemptTimeout q sense) s
      = .next (if passed since (ctl q s).cfg.holdLimit.toNat s then
          if (ctl q s).state = .stopping then stopped q (completeHoldTimeout q s)
          else beginRecovery q sense (completeHoldTimeout q s)
        else s) := by
  refine congrArg Host.Outcome.next ((outOfReset_released hs).trans ?_)
  simp only [stopAttemptTimeoutEvent, hown, elapsed_iff, endStopping_eq_stopped]

end

end

theorem completeHoldTimeout_of_active {q : SegId} {a : ActiveJob} {o : FrameOutcome} {s : State}
    (ha : (ctl q s).active = some a) (ho : a.last = some o) : completeHoldTimeout q s = finished q a o (usedBy a) s := by
  rw [completeHoldTimeout, ha]
  dsimp only
  rw [ho]
  exact completeAttempt_eq_finished o ha

theorem completeHoldTimeout_of_no_job {q : SegId} {s : State} (ha : (ctl q s).active = none) :
    completeHoldTimeout q s = s := by
  rw [completeHoldTimeout, ha]

/-- Settles O42: the tick in a frame, the hold at its limit, and the stop attempt with its ends. -/
theorem holdTimeoutsMakeAStopAttempt : Obligations.HoldTimeoutsMakeAStopAttempt := by
  intro q wire sense since s hs
  dsimp only
  have hattempt (o : FrameOutcome) :
      takeResult q o (beginStopAttempt q o) s = takeResult q o (fun t => modCtl q (fun c =>
        { c with
          own := .stopAttempt s.timebase, stopReleased := false, earlyEnd := none, traffic := noTraffic, holdSince := none
          byteInProgress := 0#8, bitCount := 0
          active := c.active.map fun a => { a with phase := .running, last := some o } }) t) s :=
    takeResult_congr (beginStopAttempt_eq q o _)
  refine ⟨fun w hown hheld hseg hbits => ?_, fun a hown ha hheld => ?_, fun hown ha hheld => ?_, fun hown h => ?_,
    fun hown hheld => ?_, fun hown hpassed => ?_, fun hown hnot => ?_, fun w hown hseg => ?_, fun hown hstate => ?_,
    fun a o hown ha ho => ?_, fun hown => ?_, fun hown ha hstop => ?_⟩
  · subst hseg
    refine ⟨_, _, exec_tick_report hs (takeLineReport_frame hown hheld), fun e x hcut hx => ?_, fun e hcut hx => ?_,
      fun hended => ?_⟩
    · rw [byteNow_sent hcut hx hbits]
      exact ⟨rfl, rfl⟩
    · rw [byteNow_read hcut hx hbits]
      exact ⟨rfl, fun i hi => wireBit_byteOfBits _ hi⟩
    · rw [byteNow_ended _ hended]
      exact ⟨rfl, rfl⟩
  · rw [exec_holdTimeout_frame hs hown ha hheld, hattempt]
  · exact exec_holdTimeout_dropped hs hown ha hheld
  · exact exec_holdTimeout_none hs hown h
  · exact exec_ends_of_heldTooLong hs hown hheld wire
  · rw [exec_holdTimeout_startWait hs wire hown, if_pos hpassed, hattempt]
  · rw [exec_holdTimeout_startWait hs wire hown, if_neg hnot]
  · subst hseg
    refine exec_tick_report hs ?_
    rw [takeLineReport, hown]
    rfl
  · rcases hstate with h | h <;> simp only [driven, h, hown]
  · have hcomplete := completeHoldTimeout_of_active ha ho
    refine ⟨fun hnot => ?_, fun hpassed hstate => ?_, fun hpassed hstate => ?_⟩
    · rw [exec_stopAttemptEnd hs hown, if_neg hnot, hcomplete]
    · rw [exec_stopAttemptTimeout hs hown, if_pos hpassed, if_neg hstate, hcomplete]
    · rw [exec_stopAttemptTimeout hs hown, if_pos hpassed, if_pos hstate, hcomplete]
  · refine ⟨fun hpassed => ?_, fun hnot => ?_⟩
    · rw [exec_stopAttemptEnd hs hown, if_pos hpassed]
    · rw [exec_stopAttemptTimeout hs hown, if_neg hnot]
  · have hcomplete := completeHoldTimeout_of_no_job ha
    refine ⟨fun hnot => ?_, fun hpassed => ?_⟩
    · rw [exec_stopAttemptEnd hs hown, if_neg hnot, hcomplete,
        afterCompletion_of_stopping (by rw [ctl_modCtl_same]; exact hstop), stopped_modCtl rfl]
    · rw [exec_stopAttemptTimeout hs hown, if_pos hpassed, if_pos hstop, hcomplete]

end Sys2Proof.Proofs
end

section
/-! Foreign frames as the part observes them: their start, and their stop by what the controller holds (R77, R98 to R100,
R104). -/

namespace Sys2Proof.Proofs

open Sys2Proof.Machine Sys2Proof.Safety Sys2Proof.Spec

/-! ## A foreign start (R98, R99) -/

/-- The controller observes a foreign frame from its start on, with the busy wait given. -/
def observesStart (wait : Option Word) (c : Controller) : Controller :=
  { c with
    state := .foreign, bus := .busy, own := .quiet, earlyEnd := none, addressExpected := true, byteInProgress := 0#8
    bitCount := 0, busySince := wait }

theorem enterForeign_eq (q : SegId) (s : State) :
    enterForeign q true (0#8, 0) s = modCtl q (observesStart (ctl q s).busySince) s :=
  modCtl_congr rfl

theorem beginBusyWait_enterForeign (q : SegId) (s : State) :
    beginBusyWait q (enterForeign q true (0#8, 0) s) = modCtl q (observesStart (some s.timebase)) s := by
  rw [beginBusyWait, enterForeign, modCtl_modCtl]
  exact modCtl_congr rfl

/-- A busy wait begins where an attempt is due, or jobs wait and none is held (R98). -/
theorem foreignBegins_eq (q : SegId) (s : State) :
    foreignBegins q s
      = modCtl q (observesStart (match (ctl q s).active with
          | none => if occupancy (queue q s) = 0 then (ctl q s).busySince else some s.timebase
          | some a => if a.phase = .due then some s.timebase else (ctl q s).busySince)) s := by
  unfold foreignBegins
  cases (ctl q s).active with
  | none =>
    dsimp only
    rw [beginBusyWait_enterForeign, enterForeign_eq]
    split <;> rfl
  | some a =>
    dsimp only
    cases a.phase with
    | due => exact beginBusyWait_enterForeign q s
    | _ => exact enterForeign_eq q s

/-- FOREIGN_START in the states that observe a free bus. -/
theorem exec_foreignStart_free {q : SegId} {s : State} (hs : s.inReset = false)
    (h : (ctl q s).state = .idle ∨ (ctl q s).state = .settle ∨ (ctl q s).state = .backoff
      ∨ (ctl q s).state = .active ∧ ∃ t, (ctl q s).own = .startWait t) :
    exec (.foreignStart q) s = .next (foreignBegins q s) := by
  refine congrArg Host.Outcome.next ((outOfReset_released hs).trans ?_)
  rcases h with h | h | h | ⟨h, t, hown⟩
  · rw [foreignStartEvent, h]
  · rw [foreignStartEvent, h]
  · rw [foreignStartEvent, h]
  · simp only [foreignStartEvent, h, hown]

/-! ## The stop of a foreign frame (R77, R99, R104) -/

/-- The bus is FREE after a foreign frame, and the controller in the state given. -/
def foreignEnded (st : CtlState) (c : Controller) : Controller :=
  { c with state := st, bus := .free, busySince := none, addressExpected := false, byteInProgress := 0#8, bitCount := 0 }

section
variable {q : SegId} {a : ActiveJob} {s : State} (ha : (ctl q s).active = some a)
include ha

theorem beginDue_started (h : a.started = true) : beginDue q s = started q s := by
  rw [beginDue, ha]
  dsimp only
  rw [if_pos h, beginFrame_eq_started]

/-- An attempt whose start report has not been taken waits in IDLE (R96). -/
theorem beginDue_waits (h : a.started = false) :
    beginDue q s = modCtl q (fun c => { c with state := .idle, active := some { a with phase := .due } }) s := by
  rw [beginDue, ha]
  dsimp only
  rw [if_neg (by simp [h]), modActive_of_active _ (by rw [ctl_modCtl_same]; exact ha), modCtl_modCtl]
  exact modCtl_congr rfl

end

section
variable {q : SegId} {s : State}

theorem active_foreignEnded (st : CtlState) : (ctl q (modCtl q (foreignEnded st) s)).active = (ctl q s).active := by
  rw [ctl_modCtl_same]
  rfl

theorem modCtl_foreignEnded (st st' : CtlState) :
    modCtl q (fun c => { c with state := st' }) (modCtl q (foreignEnded st) s) = modCtl q (foreignEnded st') s := by
  rw [modCtl_modCtl]
  exact modCtl_congr rfl

theorem foreignEnds_of_no_job (ha : (ctl q s).active = none) : foreignEnds q s = modCtl q (foreignEnded .idle) s := by
  have hactive := (active_foreignEnded (q := q) (s := s) .idle).trans ha
  unfold foreignEnds
  dsimp only
  split
  · rfl
  · next h => exact nomatch hactive.symm.trans h

variable {a : ActiveJob} (ha : (ctl q s).active = some a)
include ha

/-- The cases of R99 for a held job, by its phase. -/
theorem foreignEnds_of_active :
    foreignEnds q s = match a.phase with
      | .due => beginDue q (modCtl q (foreignEnded .idle) s)
      | .backoff _ => modCtl q (foreignEnded .backoff) s
      | .settle _ => modCtl q (foreignEnded .settle) s
      | .backoffPending => beginBackoff q (modCtl q (foreignEnded .idle) s)
      | .running | .recovering => modCtl q (foreignEnded .idle) s := by
  have hactive := (active_foreignEnded (q := q) (s := s) .idle).trans ha
  unfold foreignEnds
  dsimp only
  split
  · next h => exact nomatch hactive.symm.trans h
  · next b h =>
    have hb : b = a := Option.some.inj (h.symm.trans hactive)
    subst hb
    cases b.phase with
    | backoff t => exact modCtl_foreignEnded _ _
    | settle t => exact modCtl_foreignEnded _ _
    | due => rfl
    | backoffPending => rfl
    | running => rfl
    | recovering => rfl

end

/-- A pending backoff begins with the bus FREE (R104). -/
theorem beginBackoff_ended {q : SegId} {a : ActiveJob} {s : State} (ha : (ctl q s).active = some a)
    (hback : (ctl q s).cfg.backoff ≠ 0#8) :
    beginBackoff q (modCtl q (foreignEnded .idle) s)
      = modCtl q (fun c => { c with active := some { a with phase := .backoff s.timebase } })
          (modCtl q (foreignEnded .backoff) s) := by
  have hcfg : (ctl q (modCtl q (foreignEnded .idle) s)).cfg = (ctl q s).cfg := by
    rw [ctl_modCtl_same]
    rfl
  rw [beginBackoff, if_neg (by rwa [hcfg]), modCtl_modCtl, modActive, modCtl_modCtl, modCtl_modCtl]
  exact modCtl_congr (by rw [foreignEnded, ha]; rfl)

/-- A backoff of 0 ends in the event in which it begins: the attempt is due at once (R104; log entry 11). -/
theorem beginBackoff_ended_zero {q : SegId} {s : State} (hback : (ctl q s).cfg.backoff = 0#8) :
    beginBackoff q (modCtl q (foreignEnded .idle) s) = beginDue q (modCtl q (foreignEnded .idle) s) := by
  have hctl : ctl q (modCtl q (foreignEnded .idle) s) = foreignEnded .idle (ctl q s) := ctl_modCtl_same _ _ _
  rw [beginBackoff, if_pos (by rw [hctl]; exact hback), attemptDue, hctl]
  rfl

theorem exec_foreignStop_foreign {q : SegId} {s : State} (hs : s.inReset = false) (h : (ctl q s).state = .foreign) :
    exec (.foreignStop q) s = .next (foreignEnds q s) := by
  refine congrArg Host.Outcome.next ((outOfReset_released hs).trans ?_)
  rw [foreignStopEvent, h]

/-- Settles O44: the start by what is held, the stop by the four cases of R99, and the two in RECEIVING. -/
theorem foreignFramesHoldTheBus : Obligations.ForeignFramesHoldTheBus := by
  intro q s hs
  dsimp only
  have hstop (h : (ctl q s).state = .foreign) := exec_foreignStop_foreign hs h
  have hactive {a : ActiveJob} (ha : (ctl q s).active = some a) :=
    (active_foreignEnded (q := q) (s := s) .idle).trans ha
  refine ⟨fun hfree ha hempty => ?_, fun hfree ha hjobs => ?_, fun a hfree ha hphase => ?_,
    fun a t hfree ha hphase => ?_, fun hforeign => ?_, fun hforeign ha => ?_, fun a hforeign ha hphase hstarted => ?_,
    fun a hforeign ha hphase hstarted => ?_, fun a t hforeign ha hphase => ?_, fun a t hforeign ha hphase => ?_,
    fun a hforeign ha hphase hback => ?_, fun a hforeign ha hphase hback => ?_, fun hreceiving => ?_,
    fun hforeign hreceiving => ?_⟩
  · rw [exec_foreignStart_free hs hfree, foreignBegins_eq, ha]
    dsimp only
    rw [if_pos hempty]
    rfl
  · rw [exec_foreignStart_free hs hfree, foreignBegins_eq, ha]
    dsimp only
    rw [if_neg hjobs]
    rfl
  · rw [exec_foreignStart_free hs hfree, foreignBegins_eq, ha]
    dsimp only
    rw [if_pos hphase]
    rfl
  · have hnot : a.phase ≠ .due := by rcases hphase with h | h <;> rw [h] <;> exact fun h => nomatch h
    rw [exec_foreignStart_free hs hfree, foreignBegins_eq, ha]
    dsimp only
    rw [if_neg hnot]
    rfl
  · refine congrArg Host.Outcome.next ((outOfReset_released hs).trans ?_)
    rw [foreignStartEvent, hforeign]
  · rw [hstop hforeign, foreignEnds_of_no_job ha]
    rfl
  · rw [hstop hforeign, foreignEnds_of_active ha, hphase]
    exact congrArg Host.Outcome.next (beginDue_started (hactive ha) hstarted)
  · rw [hstop hforeign, foreignEnds_of_active ha, hphase]
    refine congrArg Host.Outcome.next ((beginDue_waits (hactive ha) hstarted).trans ?_)
    rw [modCtl_modCtl]
    exact modCtl_congr (by rw [← hphase, ← ha]; rfl)
  · rw [hstop hforeign, foreignEnds_of_active ha, hphase]
    rfl
  · rw [hstop hforeign, foreignEnds_of_active ha, hphase]
    rfl
  · rw [hstop hforeign, foreignEnds_of_active ha, hphase]
    exact congrArg Host.Outcome.next (beginBackoff_ended ha hback)
  · rw [hstop hforeign, foreignEnds_of_active ha, hphase]
    dsimp only
    rw [beginBackoff_ended_zero hback]
    refine ⟨fun hstarted => ?_, fun hstarted => ?_⟩
    · exact congrArg Host.Outcome.next (beginDue_started (hactive ha) hstarted)
    · refine congrArg Host.Outcome.next ((beginDue_waits (hactive ha) hstarted).trans ?_)
      rw [modCtl_modCtl]
      refine Eq.trans ?_ (modCtl_modCtl ..).symm
      exact modCtl_congr rfl
  · refine ⟨congrArg Host.Outcome.next ((outOfReset_released hs).trans (Eq.trans ?_ (outOfReset_released hs).symm)),
      congrArg Host.Outcome.next ((outOfReset_released hs).trans (Eq.trans ?_ (outOfReset_released hs).symm))⟩
    · rw [foreignStopEvent, hreceiving]
    · rw [foreignStartEvent, hreceiving]
  · refine congrArg Host.Outcome.next ((outOfReset_released hs).trans ?_)
    unfold foreignStopEvent
    split
    · next h => exact absurd h hforeign
    · next h => exact absurd h hreceiving
    all_goals rfl

end Sys2Proof.Proofs
end

section
/-! The Listen Unit on the lines: foreign address bytes are decided by the listen entries and the places of the ring (R134 to
R136). -/

namespace Sys2Proof.Proofs

open Sys2Proof.Machine Sys2Proof.Safety Sys2Proof.Spec

/-! ## The listen entry used (R134) -/

theorem listensFor_iff (q : SegId) (a : DeviceAddr) (x : ListenEntry) : listensFor q a x = true ↔ matchesListen q a x := by
  simp [listensFor, matchesListen, and_assoc]

theorem entryUsed_eq_none {q : SegId} {a : DeviceAddr} {s : State} (h : ∀ i, ¬ matchesListen q a (listenEntry i s)) :
    entryUsed q a s = none :=
  List.find?_eq_none.2 fun i _ => mt (listensFor_iff q a _).1 (h i)

/-- The first match in ascending order is the lowest-indexed one. -/
theorem entryUsed_eq_some {q : SegId} {a : DeviceAddr} {i : ListenId} {s : State} (h : UsedEntry q a i s) :
    entryUsed q a s = some i := by
  obtain ⟨hmatch, hlowest⟩ := h
  obtain ⟨before, after, hsplit⟩ := List.append_of_mem (mem_indices i)
  have hsorted : (indices 16).Pairwise (· < ·) := List.pairwise_lt_finRange 16
  rw [hsplit] at hsorted
  have hbefore : ∀ j ∈ before, ¬ listensFor q a (listenEntry j s) = true := fun j hj =>
    mt (listensFor_iff q a _).1 (hlowest j ((List.pairwise_append.1 hsorted).2.2 j hj i (List.mem_cons_self ..)))
  rw [entryUsed, hsplit, List.find?_append, List.find?_eq_none.2 hbefore]
  exact List.find?_cons_of_pos (p := fun j => listensFor q a (listenEntry j s)) ((listensFor_iff q a _).2 hmatch)

/-! ## Deciding an address byte (R135, R136) -/

section
variable {q : SegId} {byte : Byte} {s : State}

theorem decideAddress_unmatched (h : ∀ i, ¬ matchesListen q (byteAddress byte) (listenEntry i s)) :
    decideAddress q byte s = s := by
  rw [decideAddress, entryUsed_eq_none h]

/-- Direction R is not admitted. -/
theorem decideAddress_read (h : byte.getLsbD 0 = true) : decideAddress q byte s = s := by
  unfold decideAddress
  split
  · rfl
  · split
    · rfl
    · exact if_pos h

variable {i : ListenId} {action : ListenAction} (hused : UsedEntry q (byteAddress byte) i s)
  (haction : listenAction (listenEntry i s).action = some action) (hwrite : byte.getLsbD 0 = false)
include hused haction hwrite

theorem decideAddress_admitted (h : needsPlace action = true → s.ring.length + reservedCount s < 32) :
    decideAddress q byte s = openReception q i (byteAddress byte) action s := by
  have hplace : ¬ (needsPlace action = true ∧ freePlaces s = 0) := fun ⟨hneeds, hnone⟩ =>
    absurd (h hneeds) (Nat.not_lt.2 (Nat.sub_eq_zero_iff_le.1 hnone))
  have hdirection : ¬ byteIsRead byte = true := by rw [byteIsRead, hwrite]; exact Bool.false_ne_true
  rw [decideAddress, entryUsed_eq_some hused]
  dsimp only
  rw [haction]
  dsimp only
  rw [if_neg hdirection, if_neg hplace]

/-- A claim that finds no free place (R135). -/
theorem decideAddress_lost (hneeds : needsPlace action = true) (h : 32 ≤ s.ring.length + reservedCount s) :
    decideAddress q byte s = loseCapture s := by
  have hplace : freePlaces s = 0 := Nat.sub_eq_zero_of_le h
  have hdirection : ¬ byteIsRead byte = true := by rw [byteIsRead, hwrite]; exact Bool.false_ne_true
  rw [decideAddress, entryUsed_eq_some hused]
  dsimp only
  rw [haction]
  dsimp only
  rw [if_neg hdirection, if_pos ⟨hneeds, hplace⟩]

end

theorem listenAction_eq_some {code : BitVec 3} :
    (code = 0#3 → listenAction code = some .capture) ∧ (code = 1#3 → listenAction code = some .captureRefresh)
      ∧ (code = 2#3 → listenAction code = some .refresh) ∧ (code = 3#3 → listenAction code = some .sink) := by
  refine ⟨?_, ?_, ?_, ?_⟩ <;> rintro rfl <;> rfl

theorem loseCapture_eq (s : State) :
    loseCapture s
      = noted 0x080#13
          { s with lostCount := if s.lostCount = 65535#16 then s.lostCount else s.lostCount + 1#16 } := by
  have hsat : satInc s.lostCount = if s.lostCount = 65535#16 then s.lostCount else s.lostCount + 1#16 := by
    have hall : BitVec.allOnes 16 = 65535#16 := by decide
    rw [satInc, hall]
  rw [loseCapture, hsat]
  rfl

theorem openReception_eq (q : SegId) (i : ListenId) (a : DeviceAddr) (action : ListenAction) (s : State) :
    openReception q i a action s
      = modCtl q (fun c =>
          { c with state := .receiving, rx := Vector.replicate 32 0#8, rxCount := 0, overran := false, acksGiven := [] })
          (setReception q (some { listenIndex := i, address := a, action := action, reserved := needsPlace action }) s) := by
  rw [openReception, fill_nil]

/-- The controller at the eighth bit of an address byte. -/
def addressRead (b : Byte) (c : Controller) : Controller :=
  { c with addressExpected := false, byteInProgress := b, bitCount := 8 }

/-- ADDRESS_BYTE_DECISION: the byte is completed from the bits that stand, and decided (R81, R134). -/
theorem exec_addressByteDecision {q : SegId} {sent b : Byte} {s : State} (hs : s.inReset = false)
    (hstate : (ctl q s).state = .foreign) (hexpected : (ctl q s).addressExpected = true)
    (hb : ∀ i, i < 8 → wireBit b i = if i < (ctl q s).bitCount then wireBit (ctl q s).byteInProgress i else wireBit sent i) :
    exec (.addressByteDecision q sent) s
      = .next (decideAddress q b (modCtl q (addressRead b) s)) := by
  have hbyte : completedByte (ctl q s).bitCount (ctl q s).byteInProgress sent = b :=
    byte_eq_of_wireBit fun i hi => by rw [wireBit_completedByte _ _ _ hi, hb i hi]
  refine congrArg Host.Outcome.next ((outOfReset_released hs).trans ?_)
  rw [addressByteDecisionEvent, if_pos ⟨hstate, hexpected⟩]
  dsimp only
  rw [hbyte]
  rfl

/-- Settles O45: the byte is decided by the entry used, its action, the direction and the places of the ring. -/
theorem addressBytesAreDecided : Obligations.AddressBytesAreDecided := by
  intro q sent b s hs hstate hexpected hb
  dsimp only
  rw [exec_addressByteDecision hs hstate hexpected hb]
  refine ⟨fun h => congrArg Host.Outcome.next (decideAddress_unmatched (s := modCtl q (addressRead b) s) h),
    fun h => congrArg Host.Outcome.next (decideAddress_read h), fun w hseg hbits hown => ?_, fun i hused hwrite => ?_⟩
  · exact exec_tick_observed hs hseg hown hstate (.inl hexpected) hbits
  · obtain ⟨hcapture, hcaptureRefresh, hrefresh, hsink⟩ := @listenAction_eq_some (listenEntry i s).action
    have hopened (action : ListenAction) (haction : listenAction (listenEntry i s).action = some action)
        (hplace : needsPlace action = true → s.ring.length + reservedCount s < 32) :=
      congrArg (Host.Outcome.next (φ := Fault) (ρ := Refusal))
        ((decideAddress_admitted (s := modCtl q (addressRead b) s) hused haction hwrite hplace).trans (openReception_eq ..))
    have hlost (action : ListenAction) (haction : listenAction (listenEntry i s).action = some action)
        (hneeds : needsPlace action = true) (hplace : 32 ≤ s.ring.length + reservedCount s) :=
      congrArg (Host.Outcome.next (φ := Fault) (ρ := Refusal))
        ((decideAddress_lost (s := modCtl q (addressRead b) s) hused haction hwrite hneeds hplace).trans (loseCapture_eq _))
    refine ⟨fun hcode => ?_, fun hcode => ?_, fun hcode hplace => ?_, fun hcode hplace => ?_, fun hcode hplace => ?_⟩
    · exact hopened .refresh (hrefresh hcode) (fun h => nomatch h)
    · exact hopened .sink (hsink hcode) (fun h => nomatch h)
    · exact hopened .capture (hcapture hcode) (fun _ => hplace)
    · exact hopened .captureRefresh (hcaptureRefresh hcode) (fun _ => hplace)
    · rcases hcode with hcode | hcode
      · exact hlost .capture (hcapture hcode) rfl hplace
      · exact hlost .captureRefresh (hcaptureRefresh hcode) rfl hplace

end Sys2Proof.Proofs
end

section
/-! Receptions as a tick and their end find them: the data bytes stored and acknowledged (R91), and the records and notices they
end in (R137, R138, R140). -/

namespace Sys2Proof.Proofs

open Sys2Proof.Machine Sys2Proof.Safety Sys2Proof.Spec

/-! ## Data bytes received (R91) -/

theorem receiveBytes_eq_received (bytes : List Byte) (c : Controller) : receiveBytes bytes c = received bytes c := rfl

/-- A buffer filled with bytes that fit holds them in its first places. -/
theorem take_toList_fill {n : Nat} {bytes : List Byte} (h : bytes.length ≤ n) :
    (fill n bytes).toList.take bytes.length = bytes := by
  have hlist : (fill n bytes).toList = List.ofFn fun i : Fin n => bytes.getD i.val 0#8 := rfl
  refine List.ext_getElem (by simp [h]) fun i hi hb => ?_
  simp [hlist, hb]

/-- The bytes a reception holds are the first 32 that came. -/
theorem receivedBytes_received (bytes : List Byte) (c : Controller) :
    receivedBytes (received bytes c) = (c.rx.toList.take c.rxCount ++ bytes).take 32 := by
  have hfits := take_toList_fill (n := 32) (bytes := (c.rx.toList.take c.rxCount ++ bytes).take 32) (by simp)
  rw [List.length_take, Nat.min_comm] at hfits
  exact hfits

/-! ## The end of a reception at the Listen Unit (R137, R138) -/

/-- The bytes of a reception up to its end, those that came with its last event included. -/
def receptionData (bytes : List Byte) (c : Controller) : List Byte := c.rx.toList.take c.rxCount ++ bytes

/-- The capture record of a reception (Table 8.4). -/
def recordOf (q : SegId) (bytes : List Byte) (r : Reception) (s : State) : CaptureRecord :=
  { sequence := s.nextSequence, segment := q, listenIndex := r.listenIndex, address := r.address
    length := BitVec.ofNat 6 (received bytes (ctl q s)).rxCount, overran := (received bytes (ctl q s)).overran
    action := r.action, arrivalTime := s.timebase, data := (received bytes (ctl q s)).rx }

theorem captureRecord_eq_recordOf (q : SegId) (bytes : List Byte) (r : Reception) (s : State) :
    captureRecord q r (modCtl q (received bytes) s) = recordOf q bytes r s := by
  have hdata : fill 32 (receivedBytes (received bytes (ctl q s))) = (received bytes (ctl q s)).rx := by
    rw [receivedBytes_received]
    rfl
  rw [captureRecord, ctl_modCtl_same, hdata]
  rfl

theorem needsPlace_iff (a : ListenAction) : needsPlace a = true ↔ (a = .capture ∨ a = .captureRefresh) := by
  cases a <;> simp [needsPlace]

theorem sendsNotice_iff (a : ListenAction) : sendsNotice a = true ↔ (a = .refresh ∨ a = .captureRefresh) := by
  cases a <;> simp [sendsNotice]

/-- A notice goes out where there is a data byte: the low seven bits of the first (R138). -/
theorem sendNotice_take (q : SegId) (bytes : List Byte) (s : State) :
    sendNotice q (bytes.take 32) s
      = { s with
          notices := if bytes ≠ [] then s.notices ++ [{ segment := q, subject := (bytes.headD 0#8).extractLsb' 0 7 }]
            else s.notices } := by
  cases bytes with
  | nil => rfl
  | cons b bytes =>
    have hlow : b.setWidth 7 = b.extractLsb' 0 7 := by
      apply BitVec.eq_of_getLsbD_eq
      intro i hi
      simp [hi]
    rw [List.take_succ_cons, sendNotice, hlow, if_pos (List.cons_ne_nil b bytes)]
    rfl

/-- What a reception's end leaves: no reservation, the record at the ring's tail, the notice sent. -/
def receptionTaken (q : SegId) (bytes : List Byte) (r : Reception) (s : State) : State :=
  let captures := r.action = .capture ∨ r.action = .captureRefresh
  let notifies := (r.action = .refresh ∨ r.action = .captureRefresh) ∧ receptionData bytes (ctl q s) ≠ []
  { s with
    receptions := putAt s.receptions q none
    ring := if captures then s.ring ++ [recordOf q bytes r s] else s.ring
    nextSequence := if captures then s.nextSequence + 1#16 else s.nextSequence
    flags := if captures then s.flags ||| 0x040#13 else s.flags
    notices :=
      if notifies then
        s.notices ++ [{ segment := q, subject := ((receptionData bytes (ctl q s)).headD 0#8).extractLsb' 0 7 }]
      else s.notices
    ctls := putAt s.ctls q (received bytes (ctl q s)) }

theorem endReception_eq (q : SegId) (bytes : List Byte) (r : Reception) (s : State) :
    endReception q r (modCtl q (receiveBytes bytes) s) = receptionTaken q bytes r s := by
  have hreceived : receivedBytes (ctl q (modCtl q (received bytes) s)) = (receptionData bytes (ctl q s)).take 32 := by
    rw [ctl_modCtl_same]
    exact receivedBytes_received bytes (ctl q s)
  have hfun : receiveBytes bytes = received bytes := funext fun c => receiveBytes_eq_received bytes c
  rw [hfun, endReception]
  rw [hreceived, sendNotice_take, captureRecord_eq_recordOf]
  unfold receptionTaken
  simp only [needsPlace_iff, sendsNotice_iff]
  cases r.action <;> simp [completeRecord, raise, setReception, modCtl, Event.bit]

/-! ## The events of a reception -/

/-- A report of a reception's lines: its data bytes are taken, and the byte in progress follows the wire (R91). -/
theorem takeLineReport_receiving {w : LineReport} {s : State}
    (hown : ∀ t, (ctl w.seg s).own ≠ .frame t ∧ (ctl w.seg s).own ≠ .stopAttempt t)
    (hstate : (ctl w.seg s).state = .receiving) (hbits : w.bits.length ≤ 8) :
    takeLineReport s w
      = modCtl w.seg (fun c =>
          { received w.traffic.reads c with byteInProgress := byteOfBits w.bits, bitCount := w.bits.length }) s := by
  rw [(takeLineReport_offWire hown).1 hstate, receptionAdvances, Nat.min_eq_right hbits]
  rfl

/-- RECEPTION_END by its two endings (R100, R137). -/
theorem exec_receptionEnd {q : SegId} (bytes : List Byte) {r : Reception} {s : State} (hs : s.inReset = false)
    (hstate : (ctl q s).state = .receiving) (hr : reception q s = some r) :
    exec (.receptionEnd q bytes .stop) s = .next (foreignEnds q (receptionTaken q bytes r s))
      ∧ exec (.receptionEnd q bytes .repeatedStart) s
        = .next (modCtl q (fun c =>
            { c with state := .foreign, bus := .busy, addressExpected := true, byteInProgress := 0#8, bitCount := 0 })
            (receptionTaken q bytes r s)) := by
  rw [← endReception_eq]
  refine ⟨congrArg Host.Outcome.next ((outOfReset_released hs).trans ?_),
    congrArg Host.Outcome.next ((outOfReset_released hs).trans ?_)⟩ <;>
  simp only [receptionEndEvent, hstate, hr]

/-- The stop of a foreign frame does not look at the state it leaves. -/
theorem foreignEnds_modCtl_state (q : SegId) (st : CtlState) (s : State) :
    foreignEnds q (modCtl q (fun c => { c with state := st }) s) = foreignEnds q s := by
  have hended (x : CtlState) : modCtl q (foreignEnded x) (modCtl q (fun c => { c with state := st }) s)
      = modCtl q (foreignEnded x) s := by
    rw [modCtl_modCtl]
    exact modCtl_congr rfl
  have hactive : (ctl q (modCtl q (fun c => { c with state := st }) s)).active = (ctl q s).active := by
    rw [ctl_modCtl_same]
  cases ha : (ctl q s).active with
  | none => rw [foreignEnds_of_no_job (hactive.trans ha), foreignEnds_of_no_job ha, hended]
  | some a =>
    rw [foreignEnds_of_active (hactive.trans ha), foreignEnds_of_active ha]
    simp only [hended]

/-- Settles O46: the data bytes at a tick, the acknowledge on the line, and the two ends. -/
theorem receptionsEndInRecordsAndNotices : Obligations.ReceptionsEndInRecordsAndNotices := by
  intro q bytes r s hs hstate hr
  dsimp only
  obtain ⟨hstop, hrepeated⟩ := exec_receptionEnd bytes hs hstate hr
  refine ⟨fun w hseg hbytes hbits hown => ?_, ?_, hrepeated, ?_⟩
  · subst hseg hbytes
    refine ⟨_, exec_tick_report hs (takeLineReport_receiving hown hstate hbits), fun i hi => wireBit_byteOfBits _ hi⟩
  · have hack : acknowledges (ctl q s).rxCount = true ↔ (ctl q s).rxCount < 32 := decide_eq_true_iff
    simp only [driven, hstate, hack]
  · have hforeign : (ctl q (modCtl q (fun c => { c with state := .foreign }) (receptionTaken q bytes r s))).state
        = .foreign := by rw [ctl_modCtl_same]
    rw [hstop, ← foreignEnds_modCtl_state q .foreign]
    refine (exec_foreignStop_foreign ?_ hforeign).symm
    exact hs

end Sys2Proof.Proofs
end

section
/-! The slot commands SLOT_CANCEL and SLOT_RELEASE (R125 to R128), and the abort request at the controller (R85, R115). -/

namespace Sys2Proof.Proofs

open Sys2Proof.Machine Sys2Proof.Safety Sys2Proof.Spec

/-! ## SLOT_CANCEL at the slot (R125 to R127) -/

section
variable {k : SlotId} {s : State}

theorem slotCancel_free (h : (slot k s).state = .free) : slotCancel k s = (s, .refused .badState) := by
  rw [slotCancel, h]

theorem slotCancel_done (h : (slot k s).state = .done) : slotCancel k s = (s, .refused .tooLate) := by
  rw [slotCancel, h]

/-- The job of a SUBMITTED slot leaves its queue, and the slot is DONE (R126). -/
theorem slotCancel_submitted (h : (slot k s).state = .submitted) :
    slotCancel k s
      = (noted 0x020#13 (modSlot k (endedSlot .cancelled 0#6 0#6 0#4 [])
          (if holds (.direct k) (queue (slot k s).seg s) = true then left (slot k s).seg (.direct k) s else s)),
          .accepted) := by
  rw [slotCancel, h]
  dsimp only
  rw [removeJob_eq]
  rfl

theorem slotCancel_again (h : (slot k s).state = .active) (hpending : (slot k s).cancelPending = true) :
    slotCancel k s = (s, .accepted) := by
  rw [slotCancel, h]
  exact if_pos hpending

theorem slotCancel_active (h : (slot k s).state = .active) (hpending : (slot k s).cancelPending = false) :
    slotCancel k s
      = (abortRequest (slot k s).seg k (modSlot k (fun x => { x with cancelPending := true }) s), .accepted) := by
  rw [slotCancel, h]
  exact if_neg (by simp [hpending])

theorem slotRelease_done (h : (slot k s).state = .done) :
    slotRelease k s = (modSlot k (fun x => { x with state := .free }) s, .accepted) :=
  if_pos h

theorem slotRelease_badState (h : (slot k s).state ≠ .done) : slotRelease k s = (s, .refused .badState) :=
  if_neg h

end

/-! ## The abort request at the controller (R115) -/

section
variable {q : SegId} {k : SlotId} {a : ActiveJob} {s : State} (ha : (ctl q s).active = some a)
  (href : a.job.ref = .direct k)
include ha href

/-- In a frame the early end is requested at the next byte boundary (R85). -/
theorem abortRequest_frame {t : Word} (hown : (ctl q s).own = .frame t) :
    abortRequest q k s
      = modCtl q (fun c => { c with earlyEnd := endNext q s, active := some { a with abortPending := true } }) s := by
  have hrequest : abortRequest q k s
      = modActive q (fun a => { a with abortPending := true })
          (modCtl q (requestEarlyEnd (runOn q (partFrame q s) noTraffic s).passed) s) := by
    simp only [abortRequest, ha, href, if_true, hown, frameSoFar_eq_runOn]
  rw [hrequest, modActive, modCtl_modCtl]
  refine modCtl_congr ?_
  unfold requestEarlyEnd endNext
  rw [ha]
  cases (ctl q s).earlyEnd <;> rfl

theorem abortRequest_stopAttempt {t : Word} (hown : (ctl q s).own = .stopAttempt t) : abortRequest q k s = s := by
  simp only [abortRequest, ha, href, if_true, hown]

/-- In recovery the job completes CANCELLED, and RECOVERING goes on without it. -/
theorem abortRequest_recovering (hown : (ctl q s).own = .quiet) (hphase : a.phase = .recovering)
    (hstate : (ctl q s).state = .recovering) :
    abortRequest q k s = finished q a (noFrame .cancelled) (usedBy a) s := by
  have hrequest : abortRequest q k s = afterCompletion q (completeJob q (noFrame .cancelled) (usedBy a) s) := by
    simp only [abortRequest, ha, href, if_true, hown, hphase]
    rfl
  obtain ⟨b, hctl⟩ := ctl_completeJob q (noFrame .cancelled) (usedBy a) s
  have hkept : (ctl q (completeJob q (noFrame .cancelled) (usedBy a) s)).state = .recovering := by
    rw [hctl]
    exact hstate
  rw [hrequest, afterCompletion, hkept]
  exact completeJob_eq_finished _ _ ha

/-- A job held elsewhere completes CANCELLED with its attempts used so far. -/
theorem abortRequest_held
    (h : (∃ t, (ctl q s).own = .startWait t) ∨ ((ctl q s).own = .quiet ∧ a.phase ≠ .recovering)) :
    abortRequest q k s = afterCompletion q (finished q a (noFrame .cancelled) (a.job.attempts.setWidth 4) s) := by
  have hrequest : abortRequest q k s
      = afterCompletion q (completeJob q (noFrame .cancelled) (a.job.attempts.setWidth 4) s) := by
    rw [abortRequest, ha]
    dsimp only
    rw [if_pos href]
    rcases h with ⟨t, hown⟩ | ⟨hown, hphase⟩
    · rw [hown]
      rfl
    · rw [hown]
      cases hp : a.phase with
      | recovering => exact absurd hp hphase
      | _ => rfl
  rw [hrequest, completeJob_eq_finished _ _ ha]

end

/-- An abort request that finds no job of the slot changes nothing. -/
theorem abortRequest_no_job {q : SegId} {k : SlotId} {s : State}
    (h : (ctl q s).active.map (fun a => a.job.ref) ≠ some (.direct k)) : abortRequest q k s = s := by
  rw [abortRequest]
  cases ha : (ctl q s).active with
  | none => rfl
  | some a =>
    refine if_neg fun href => h ?_
    rw [ha, ← href]
    rfl

/-! ## The commands -/

/-- SLOT_CANCEL is answered by the slot, which finds the command word kept (R146). -/
theorem exec_slotCancel (k : SlotId) (tag : Half) {s t : State} {answer : Answer} (hs : Ready s)
    (h : slotCancel k (issued 0x31#8 (indexByte k) tag s) = (t, answer)) :
    exec (.slotCancel (indexByte k) tag) s = .next (answerCommand 0x31#8 tag answer t) := by
  have hnone : outOfReset (linesPass []) s = s := outOfReset_released hs.1
  have hport := portCommand_indexByte (by decide) 0x31#8 k tag slotCancel hs
  rw [h] at hport
  refine congrArg Host.Outcome.next ?_
  rw [hnone]
  exact hport

theorem exec_slotRelease (k : SlotId) (tag : Half) {s t : State} {answer : Answer} (hs : Ready s)
    (h : slotRelease k (issued 0x32#8 (indexByte k) tag s) = (t, answer)) :
    exec (.slotRelease (indexByte k) tag) s = .next (answerCommand 0x32#8 tag answer t) := by
  have hport := portCommand_indexByte (by decide) 0x32#8 k tag slotRelease hs
  rw [h] at hport
  exact congrArg Host.Outcome.next hport

theorem ready_linesPass (reports : List LineReport) {s : State} (hs : Ready s) : Ready (linesPass reports s) := by
  rw [Ready, inReset_linesPass, resetting_linesPass]
  exact hs

/-- What has passed on the lines is taken before the command (log entry 13). -/
theorem exec_slotCancel_reports (b : Byte) (tag : Half) (reports : List LineReport) {s : State} (hs : Ready s) :
    exec (.slotCancel b tag reports) s = exec (.slotCancel b tag) (linesPass reports s) := by
  have htaken : outOfReset (linesPass reports) s = linesPass reports s := outOfReset_released hs.1
  have hnone : outOfReset (linesPass []) (linesPass reports s) = linesPass reports s :=
    outOfReset_released (ready_linesPass reports hs).1
  refine congrArg Host.Outcome.next ?_
  rw [htaken, hnone]

/-- Settles O53: the two commands by the slot's state, and the abort request by where the job stands. -/
theorem slotCancelAndRelease : Obligations.SlotCancelAndRelease := by
  intro k tag s hs
  dsimp only
  refine ⟨fun reports => ⟨ready_linesPass reports hs, exec_slotCancel_reports _ tag reports hs⟩,
    fun h => exec_slotCancel k tag hs (slotCancel_free h), fun h => exec_slotCancel k tag hs (slotCancel_done h), fun h => ?_,
    fun h hpending => exec_slotCancel k tag hs (slotCancel_again h hpending),
    fun h hpending => exec_slotCancel k tag hs (slotCancel_active h hpending),
    fun h => exec_slotRelease k tag hs (slotRelease_done h), fun h => exec_slotRelease k tag hs (slotRelease_badState h),
    fun q => ⟨?_, ?_, ?_, ?_, ?_⟩⟩
  · have hremoved := (apply_ite (issued 0x31#8 (indexByte k) tag)
      (holds (.direct k) (queue (slot k s).seg s) = true) (left (slot k s).seg (.direct k) s) s).symm
    refine (exec_slotCancel k tag hs (slotCancel_submitted h)).trans (congrArg Host.Outcome.next ?_)
    exact congrArg (fun t => answerCommand 0x31#8 tag .accepted
      (noted 0x020#13 (modSlot k (endedSlot .cancelled 0#6 0#6 0#4 []) t))) hremoved
  · exact fun a t ha href hown => abortRequest_frame ha href hown
  · exact fun a t ha href hown => abortRequest_stopAttempt ha href hown
  · exact fun a ha href hown hphase hstate => abortRequest_recovering ha href hown hphase hstate
  · exact fun a ha href h => abortRequest_held ha href h
  · exact abortRequest_no_job

end Sys2Proof.Proofs
end

section
/-! The values after pin reset, record by record (Tables 1.3, 2.3, 4.5, 6.3, 6.6, 7.5, 8.5, 9.3). -/

namespace Sys2Proof.Proofs

open Sys2Proof.Machine Sys2Proof.Safety Sys2Proof.Spec

theorem entry_reset (e : EntryId) : entry e State.reset = Entry.reset := getAt_replicate _ e

theorem group_reset (g : GroupId) : group g State.reset = Group.reset := getAt_replicate _ g

theorem queue_reset (q : SegId) : queue q State.reset = SegQueue.reset := getAt_replicate _ q

theorem ctl_reset (q : SegId) : ctl q State.reset = Controller.reset := getAt_replicate _ q

theorem slot_reset (k : SlotId) : slot k State.reset = Slot.reset := getAt_replicate _ k

theorem listenEntry_reset (i : ListenId) : listenEntry i State.reset = ListenEntry.reset := getAt_replicate _ i

theorem reception_reset (q : SegId) : reception q State.reset = none := getAt_replicate _ q

/-- The configuration words of an entry read 0. -/
theorem readLoc_entry_reset (e : EntryId) :
    readLoc (.entryConfig0 e) State.reset = 0#32 ∧ readLoc (.entryConfig1 e) State.reset = 0#32
      ∧ readLoc (.entrySettle e) State.reset = 0#32 := by
  simp only [readLoc, entry_reset]
  decide

/-- The descriptor words of a slot read 0. -/
theorem readLoc_slot_reset (k : SlotId) :
    readLoc (.slotDesc0 k) State.reset = 0#32 ∧ readLoc (.slotDesc1 k) State.reset = 0#32 := by
  simp only [readLoc, slot_reset]
  decide

/-- The fields of a listen entry read 0. -/
theorem readLoc_listenFields_reset (i : ListenId) : readLoc (.listenFields i) State.reset = 0#32 := by
  simp only [readLoc, listenEntry_reset]
  decide

/-- A controller in OFFLINE drives nothing. -/
theorem driven_reset (q : SegId) : driven q State.reset = (.released, .released) := by
  simp only [driven, ctl_reset]
  rfl

/-- Settles O2: each record's column "After pin reset". -/
theorem valuesAfterPinReset : Obligations.ValuesAfterPinReset := by
  refine ⟨⟨rfl, rfl, rfl, rfl⟩, fun e => ?_, fun g => ?_, fun q => ?_, fun q => ?_, fun k => ?_, fun i => ?_,
    reception_reset, rfl, rfl, rfl, rfl, rfl, rfl, rfl, ?_, rfl, ?_, rfl, rfl⟩
  · obtain ⟨hconfig0, hconfig1, hsettle⟩ := readLoc_entry_reset e
    have hbuffers (i : Fin 32) : getAt Entry.reset.published i = 0#8 ∧ getAt Entry.reset.staging i = 0#8
        ∧ getAt Entry.reset.held i = 0#8 := ⟨getAt_replicate _ i, getAt_replicate _ i, getAt_replicate _ i⟩
    rw [entry_reset]
    exact ⟨rfl, rfl, rfl, rfl, rfl, rfl, rfl, rfl, rfl, rfl, rfl, rfl, rfl, rfl, rfl, hconfig0, hconfig1, hsettle, hbuffers⟩
  · rw [group_reset]
    exact ⟨rfl, rfl, rfl, rfl, rfl, rfl, rfl, rfl, rfl, rfl⟩
  · rw [queue_reset]
    exact ⟨rfl, rfl, rfl⟩
  · have hbuffers (i : Fin 32) : getAt Controller.reset.tx i = 0#8 ∧ getAt Controller.reset.rx i = 0#8 :=
      ⟨getAt_replicate _ i, getAt_replicate _ i⟩
    rw [ctl_reset]
    exact ⟨rfl, rfl, rfl, rfl, rfl, rfl, rfl, rfl, rfl, rfl, rfl, rfl, rfl, rfl, rfl, rfl, rfl, rfl, rfl, rfl, driven_reset q,
      rfl, rfl, hbuffers⟩
  · obtain ⟨hdesc0, hdesc1⟩ := readLoc_slot_reset k
    have hdata (i : Fin 64) : getAt Slot.reset.data i = 0#8 := getAt_replicate _ i
    rw [slot_reset]
    exact ⟨rfl, rfl, rfl, rfl, rfl, rfl, hdesc0, hdesc1, hdata⟩
  · rw [listenEntry_reset]
    exact ⟨rfl, readLoc_listenFields_reset i⟩
  · decide
  · decide

end Sys2Proof.Proofs
end


section
/-! The fault streak through the events of a segment and the segment commands (R95, R103, R111): each leaves it below the
threshold, or the segment QUARANTINED or OFFLINE. -/

namespace Sys2Proof.Proofs

open Sys2Proof.Machine Sys2Proof.Safety Sys2Proof.Spec

/-! ## Controllers that are online -/

/-- An operation of one segment that keeps its streak, where the controller is as its state allows. -/
def KeepsStreak (seg : SegId) (s t : State) : Prop := SegOk seg s → StreakOk (ctl seg s) → StreakOk (ctl seg t)

theorem KeepsStreak.refl (seg : SegId) (s : State) : KeepsStreak seg s s := fun _ h => h

/-- The invariant of a streak reads configuration, streak and state. -/
theorem streakOk_of_same {c d : Controller} (h : StreakOk c) (hcfg : d.cfg = c.cfg) (hstreak : d.streak = c.streak)
    (hstate : d.state = c.state) : StreakOk d := by
  rw [StreakOk, hcfg, hstreak, hstate]
  exact h

/-- A change of the controller that leaves configuration, streak and state. -/
theorem KeepsStreak.modCtl {seg : SegId} {f : Controller → Controller} {s : State}
    (hcfg : (f (ctl seg s)).cfg = (ctl seg s).cfg) (hstreak : (f (ctl seg s)).streak = (ctl seg s).streak)
    (hstate : (f (ctl seg s)).state = (ctl seg s).state) : KeepsStreak seg s (modCtl seg f s) := fun _ h => by
  rw [ctl_modCtl_same]
  exact streakOk_of_same h hcfg hstreak hstate

theorem online_of_acceptsJobs {c : Controller} (h : StreakOk c) (hstate : refusesJobs c.state = false) : Online c := by
  refine online_of_streakOk h ?_ ?_ <;> (intro e; rw [e] at hstate; cases hstate)

/-- An operation that starts from a controller whose queue takes jobs. -/
theorem KeepsStreak.of_online {seg : SegId} {s t : State} (hstate : refusesJobs (ctl seg s).state = false)
    (h : Online (ctl seg s) → StreakOk (ctl seg t)) : KeepsStreak seg s t :=
  fun _ hs => h (online_of_acceptsJobs hs hstate)

/-- An operation that starts with a frame, a stop attempt or a waiting start of the part's own. -/
theorem KeepsStreak.of_onWire {seg : SegId} {s t : State} (hown : (ctl seg s).own ≠ .quiet)
    (h : Online (ctl seg s) → StreakOk (ctl seg t)) : KeepsStreak seg s t := by
  intro hok hs
  obtain ⟨-, -, -, hwire, -⟩ := hok
  refine h (online_of_streakOk hs ?_ ?_) <;> (intro e; rcases hwire hown with h' | h' <;> rw [e] at h' <;> cases h')

/-- An operation that starts in a recovery. -/
theorem KeepsStreak.of_recovery {seg : SegId} {s t : State} {r : Recovery} (hr : (ctl seg s).recovery = some r)
    (h : Online (ctl seg s) → StreakOk (ctl seg t)) : KeepsStreak seg s t := by
  intro hok
  have hstate := (recovering_of_recovery hok hr).state
  exact KeepsStreak.of_online (by rw [hstate]; rfl) h hok

/-! ## Selection, delays and the start of attempts -/

theorem selectionEvent_streak (seg : SegId) (s : State) : KeepsStreak seg s (selectionEvent seg s) := by
  unfold selectionEvent
  split
  · next hidle => exact .of_online (by rw [hidle.1]; rfl) fun h => (online_select h).ok
  · exact .refl seg s

/-- An attempt begins in IDLE, BACKOFF or SETTLE (R97). -/
theorem acceptsJobs_of_mayBegin {c : Controller} (h : mayBegin c = true) : refusesJobs c.state = false := by
  unfold mayBegin at h
  cases hstate : c.state <;> simp_all [refusesJobs]

theorem attemptBeginEvent_streak (seg : SegId) (lines : Lines) (sense : RecoverySense) (s : State) :
    KeepsStreak seg s (attemptBeginEvent seg lines sense s) := by
  unfold attemptBeginEvent
  split
  · next hbegin => exact .of_online (acceptsJobs_of_mayBegin hbegin) (checkLines_streak lines sense)
  · exact .refl seg s

theorem clockLineSensedHighEvent_streak (seg : SegId) (sda : Bool) (sense : RecoverySense) (s : State) :
    KeepsStreak seg s (clockLineSensedHighEvent seg sda sense s) := by
  unfold clockLineSensedHighEvent
  split
  · split
    · next hstate => exact .of_online (by rw [hstate.1]; rfl) (checkLines_streak _ sense)
    · exact .refl seg s
  all_goals exact .refl seg s

/-- The end of a delay changes the job and the busy wait alone. -/
theorem ctl_delayEnds (seg : SegId) (s : State) :
    ∃ a w, ctl seg (delayEnds seg s) = { ctl seg s with active := a, busySince := w } := by
  unfold delayEnds modActive
  dsimp only
  split
  · exact ⟨_, _, by rw [beginBusyWait, ctl_modCtl_same, ctl_modCtl_same]⟩
  · exact ⟨_, _, by rw [ctl_modCtl_same]⟩

theorem delayEnds_streak (seg : SegId) (s : State) : KeepsStreak seg s (delayEnds seg s) := fun _ h => by
  obtain ⟨_, _, hctl⟩ := ctl_delayEnds seg s
  rw [hctl]
  exact streakOk_of_same h rfl rfl rfl

theorem settleEndEvent_streak (seg : SegId) (s : State) : KeepsStreak seg s (settleEndEvent seg s) := by
  unfold settleEndEvent
  split
  · exact .refl seg s
  · split
    · split
      · intro hok hs
        exact delayEnds_streak seg _ ((modActive_segStep seg _ s).ok hok)
          (KeepsStreak.modCtl (s := s) rfl rfl rfl hok hs)
      · exact .refl seg s
    all_goals exact .refl seg s

theorem backoffEndEvent_streak (seg : SegId) (s : State) : KeepsStreak seg s (backoffEndEvent seg s) := by
  unfold backoffEndEvent
  split
  · exact .refl seg s
  · split
    · split
      · exact delayEnds_streak seg s
      · exact .refl seg s
    all_goals exact .refl seg s

/-! ## The end of the part's own frame -/

theorem online_beginSettle {seg : SegId} (delay : Byte) (o : FrameOutcome) {s : State} (h : Online (ctl seg s)) :
    Online (ctl seg (beginSettle seg delay o s)) := by
  unfold beginSettle
  dsimp only
  split
  · exact online_beginDue (online_modActive (online_modActive h))
  · exact online_modActive (online_modCtl (online_modActive h) rfl rfl CtlState.noConfusion)

/-- The job completes with an attempt's outcome and the controller goes where R107 says. -/
theorem completes_streak {seg : SegId} (o : FrameOutcome) {s : State} (h : Online (ctl seg s)) :
    StreakOk (ctl seg (afterCompletion seg (completeAttempt seg o s))) :=
  afterCompletion_streak (online_completeAttempt o h)

theorem continueAfter_streak {seg : SegId} (a : ActiveJob) (o : FrameOutcome) {s : State} (h : Online (ctl seg s)) :
    StreakOk (ctl seg (continueAfter seg a o s)) := by
  unfold continueAfter
  split
  · split
    · exact completes_streak o h
    · split
      · exact completes_streak _ h
      · exact (online_beginSettle _ o h).ok
  · exact retryOrComplete_streak o h
  · exact completes_streak o h

/-- The frame of an active job ends with its stop and a result (R84, R102). -/
theorem closedFrame_streak {seg : SegId} {s : State} (a : ActiveJob) (r : FrameRun) (o : FrameOutcome)
    (h : Online (ctl seg s)) :
    StreakOk (ctl seg (takeResult seg o (continueAfter seg a o) (closeFrame seg r s))) :=
  takeResult_streak (online_modCtl h rfl rfl h.up) fun _ ht _ _ => continueAfter_streak a o ht

theorem frameEndEvent_streak (seg : SegId) (wire : Traffic) (s : State) :
    KeepsStreak seg s (frameEndEvent seg wire s) := by
  unfold frameEndEvent
  split
  · next hown =>
    dsimp only
    split
    · exact .refl seg s
    · split
      · exact .refl seg s
      · refine .of_onWire (by rw [hown]; exact OwnWire.noConfusion) fun h => ?_
        split
        · exact endStopping_streak seg s
        · exact closedFrame_streak _ _ _ h
  all_goals exact .refl seg s

theorem frameEndedEarlyEvent_streak (seg : SegId) (wire : Traffic) (s : State) :
    KeepsStreak seg s (frameEndedEarlyEvent seg wire s) := by
  unfold frameEndedEarlyEvent
  split
  · next hown =>
    dsimp only
    split
    · split
      · exact .refl seg s
      · refine .of_onWire (by rw [hown]; exact OwnWire.noConfusion) fun h => ?_
        split
        · exact endStopping_streak seg s
        · exact closedFrame_streak _ _ _ h
    · exact .refl seg s
  all_goals exact .refl seg s

/-! ## Arbitration loss, hold timeout and the stop attempt (R101, R106) -/

theorem online_loseFrame {seg : SegId} (r : FrameRun) (p : LossPoint) {s : State} (h : Online (ctl seg s)) :
    Online (ctl seg (loseFrame seg r p s)) :=
  online_modCtl (online_modCtl h rfl rfl h.up) rfl rfl CtlState.noConfusion

theorem lossDecision_streak {seg : SegId} (o : FrameOutcome) {s : State} (h : Online (ctl seg s)) :
    StreakOk (ctl seg (lossDecision seg o s)) := by
  unfold lossDecision
  split
  · exact h.ok
  · split
    · have hheld : Online (ctl seg (modActive seg (fun a => { a with phase := .backoffPending }) (countAttempt seg o s))) :=
        online_modActive (online_modActive h)
      exact (online_modCtl hheld rfl rfl hheld.up).ok
    · exact completes_streak o h
    · exact afterCompletion_streak (online_completeJob _ _ h)

theorem arbitrationLossEvent_streak (seg : SegId) (wire : Traffic) (p : LossPoint) (s : State) :
    KeepsStreak seg s (arbitrationLossEvent seg wire p s) := by
  unfold arbitrationLossEvent
  split
  · next hown =>
    split
    · refine .of_onWire (by rw [hown]; exact OwnWire.noConfusion) fun h => ?_
      split
      · exact endStopping_streak seg s
      · dsimp only
        split
        · exact takeResult_streak h fun _ ht _ _ => completes_streak _ ht
        · exact takeResult_streak h fun _ ht _ _ => lossDecision_streak _ (online_loseFrame _ p ht)
    · exact .refl seg s
  all_goals exact .refl seg s

/-- A hold timeout, in a frame or before a start. -/
theorem holdTimeout_streak {seg : SegId} (o : FrameOutcome) {s : State} (h : Online (ctl seg s)) :
    StreakOk (ctl seg (takeResult seg o (beginStopAttempt seg o) s)) :=
  takeResult_streak h fun _ ht _ _ => (online_modActive (online_modCtl ht rfl rfl ht.up)).ok

theorem holdTimeoutEvent_streak (seg : SegId) (wire : Traffic) (s : State) :
    KeepsStreak seg s (holdTimeoutEvent seg wire s) := by
  unfold holdTimeoutEvent
  split
  · next hown =>
    split
    · refine .of_onWire (by rw [hown]; exact OwnWire.noConfusion) fun h => ?_
      split
      · exact endStopping_streak seg s
      · exact holdTimeout_streak _ h
    · exact .refl seg s
  · next hown =>
    split
    · exact .of_onWire (by rw [hown]; exact OwnWire.noConfusion) (holdTimeout_streak _)
    · exact .refl seg s
  all_goals exact .refl seg s

theorem stopAttemptEndEvent_streak (seg : SegId) (s : State) : KeepsStreak seg s (stopAttemptEndEvent seg s) := by
  obtain ⟨o, hcomplete⟩ := completeHoldTimeout_eq seg s
  unfold stopAttemptEndEvent
  rw [hcomplete]
  split
  · next hown =>
    split
    · exact .refl seg s
    · refine .of_onWire (by rw [hown]; exact OwnWire.noConfusion) fun h => ?_
      have hcompleted := online_completeAttempt o h
      exact afterCompletion_streak (online_modCtl hcompleted rfl rfl hcompleted.up)
  all_goals exact .refl seg s

theorem stopAttemptTimeoutEvent_streak (seg : SegId) (sense : RecoverySense) (s : State) :
    KeepsStreak seg s (stopAttemptTimeoutEvent seg sense s) := by
  obtain ⟨o, hcomplete⟩ := completeHoldTimeout_eq seg s
  unfold stopAttemptTimeoutEvent
  rw [hcomplete]
  split
  · next hown =>
    split
    · refine .of_onWire (by rw [hown]; exact OwnWire.noConfusion) fun h => ?_
      split
      · exact endStopping_streak seg _
      · exact beginRecovery_streak sense (online_completeAttempt o h)
    · exact .refl seg s
  all_goals exact .refl seg s

/-! ## A busy bus and foreign frames (R98, R99) -/

theorem acceptsJobs_of_inForeignFrame {c : Controller} (h : inForeignFrame c.state = true) :
    refusesJobs c.state = false := by
  rcases (inForeignFrame_iff c).1 h with e | e <;> rw [e] <;> rfl

theorem busBusy_streak {seg : SegId} {s : State} (h : Online (ctl seg s)) : StreakOk (ctl seg (busBusy seg s)) :=
  takeResult_streak h fun _ ht _ _ => retryOrComplete_streak _ ht

theorem busyLimitExpiryEvent_streak (seg : SegId) (s : State) : KeepsStreak seg s (busyLimitExpiryEvent seg s) := by
  unfold busyLimitExpiryEvent
  split
  · exact .refl seg s
  · split
    · next hlimit =>
      refine .of_online (acceptsJobs_of_inForeignFrame hlimit.1) fun h => ?_
      have hended : Online (ctl seg (modCtl seg (fun c => { c with busySince := none }) s)) := online_modCtl h rfl rfl h.up
      dsimp only
      split
      · split
        · exact hended.ok
        · exact busBusy_streak (online_select hended)
      · exact busBusy_streak hended
    · exact .refl seg s

theorem foreignBegins_streak {seg : SegId} {s : State} (h : Online (ctl seg s)) :
    StreakOk (ctl seg (foreignBegins seg s)) := by
  rw [foreignBegins_eq]
  exact (online_modCtl h rfl rfl CtlState.noConfusion).ok

/-! ## Recovery (R109) -/

theorem releasePulseEvent_streak (seg : SegId) (lines after : Lines) (s : State) :
    KeepsStreak seg s (releasePulseEvent seg lines after s) := by
  unfold releasePulseEvent
  split
  · next hr =>
    refine .of_recovery hr fun h => ?_
    split
    · exact recoveryCheck_streak _ _ _ h
    · exact recoverAt_streak _ _ h
  all_goals exact .refl seg s

theorem lineClearHoldEndEvent_streak (seg : SegId) (lines after : Lines) (s : State) :
    KeepsStreak seg s (lineClearHoldEndEvent seg lines after s) := by
  unfold lineClearHoldEndEvent
  split
  · next hr =>
    refine .of_recovery hr fun h => ?_
    split
    · split
      · exact recoveryStop_streak _ _ _ h
      · exact recoverAt_streak _ _ h
    · exact h.ok
  all_goals exact .refl seg s

theorem recoveryHoldTimeoutEvent_streak (seg : SegId) (s : State) :
    KeepsStreak seg s (recoveryHoldTimeoutEvent seg s) := by
  unfold recoveryHoldTimeoutEvent
  split
  · next hwait =>
    obtain ⟨r, hr, -⟩ := Option.bind_eq_some_iff.1 hwait
    refine .of_recovery hr fun h => ?_
    split
    · exact segmentFault_streak h
    · exact h.ok
  · exact .refl seg s

theorem recoveryLinesSensedHighEvent_streak (seg : SegId) (sda : Bool) (after : Lines) (s : State) :
    KeepsStreak seg s (recoveryLinesSensedHighEvent seg sda after s) := by
  unfold recoveryLinesSensedHighEvent
  split
  iterate 2
    next hr =>
      refine .of_recovery hr fun h => ?_
      split
      · exact h.ok
      · exact recoveryCheck_streak _ _ _ h
  · next hr =>
    refine .of_recovery hr fun h => ?_
    split
    · exact h.ok
    · exact recoveryStop_streak _ _ _ h
  all_goals exact .refl seg s

/-! ## The segment commands (R111 to R114) -/

/-- A configuration that SEGMENT_ONLINE accepts has a quarantine threshold above 0 (R111). -/
theorem threshold_pos {c : SegConfig} (h : segConfigValid c = true) : 0 < c.threshold.toNat := by
  simp only [segConfigValid, Bool.and_eq_true, bne_iff_ne, ne_eq] at h
  obtain ⟨-, hthreshold⟩ := h
  exact Nat.pos_of_ne_zero fun e => hthreshold (BitVec.eq_of_toNat_eq e)

/-- A recovery begins in RECOVERING with the bus BUSY, whatever state and bus it finds. -/
theorem beginRecovery_modCtl (seg : SegId) (sense : RecoverySense) (st : CtlState) (bus : BusState) (s : State) :
    beginRecovery seg sense (modCtl seg (fun c => { c with state := st, bus := bus }) s) = beginRecovery seg sense s := by
  have hentered : modCtl seg (fun c => { c with state := .recovering, bus := .busy, own := .quiet, busySince := none })
        (modCtl seg (fun c => { c with state := st, bus := bus }) s)
      = modCtl seg (fun c => { c with state := .recovering, bus := .busy, own := .quiet, busySince := none }) s := by
    rw [modCtl_modCtl]
    exact modCtl_congr rfl
  unfold beginRecovery
  rw [hentered]
  rfl

/-- SEGMENT_ONLINE starts from streak 0, with a threshold above it. -/
theorem segmentOnline_streak (sense : SegmentSense) (seg : SegId) (s : State) :
    KeepsStreak seg s (segmentOnline sense seg s).1 := by
  unfold segmentOnline
  split
  · exact .refl seg s
  · next hstate =>
    split
    · exact .refl seg s
    · next hinvalid =>
      intro _ hs
      obtain ⟨hzero, -, -⟩ := hs
      have hvalid : segConfigValid (ctl seg s).cfg = true := Bool.of_not_eq_false hinvalid
      have hidle : Online (ctl seg (modCtl seg (fun c => { c with state := .idle, bus := .free }) s)) := by
        rw [ctl_modCtl_same]
        refine ⟨hvalid, ?_, CtlState.noConfusion⟩
        dsimp only
        rw [hzero (not_not.1 hstate)]
        exact threshold_pos hvalid
      split
      · exact hidle.ok
      · dsimp only
        rw [← beginRecovery_modCtl seg sense.recovery .idle .free s]
        exact beginRecovery_streak _ hidle

/-- SEGMENT_RESTORE sets the streak to 0 (R114). -/
theorem segmentRestore_streak (sense : RecoverySense) (seg : SegId) (s : State) :
    KeepsStreak seg s (segmentRestore sense seg s).1 := by
  unfold segmentRestore
  split
  · exact .refl seg s
  · next hstate =>
    intro _ hs
    have hup : (ctl seg s).state ≠ .offline := by
      rw [not_not.1 hstate]
      exact CtlState.noConfusion
    obtain ⟨-, hvalid, -⟩ := hs
    refine beginRecovery_streak sense ?_
    rw [ctl_modCtl_same]
    exact ⟨hvalid hup, threshold_pos (hvalid hup), hup⟩

/-- SEGMENT_OFFLINE of an online segment: STOPPING keeps the streak, and its end zeroes it. -/
theorem segmentStops_streak {seg : SegId} {s : State} (h : Online (ctl seg s)) :
    StreakOk (ctl seg (endStoppingIfQuiet seg
      (stopActiveJob seg (modCtl seg stoppingCtl (cutReception seg (flush seg s)))))) := by
  have hstopping : Online (ctl seg (modCtl seg stoppingCtl (cutReception seg (flush seg s)))) := by
    have hctl : ctl seg (cutReception seg (flush seg s)) = ctl seg s := ctl_flush seg seg s
    rw [ctl_modCtl_same, hctl]
    exact h.same rfl rfl CtlState.noConfusion
  unfold endStoppingIfQuiet
  split
  · exact endStopping_streak seg _
  · rcases stopActiveJob_cases seg (modCtl seg stoppingCtl (cutReception seg (flush seg s))) with e | ⟨o, used, e⟩ <;> rw [e]
    · exact hstopping.ok
    · exact (online_completeJob o used hstopping).ok

theorem segmentOffline_streak (seg : SegId) (s : State) : KeepsStreak seg s (segmentOffline seg s).1 := by
  unfold segmentOffline
  split
  · exact .refl seg s
  · exact .refl seg s
  · intro _ _
    rw [ctl_raise, ctl_modCtl_same]
    exact streakOk_offline _
  all_goals
    next hstate => exact .of_online (by rw [hstate]; rfl) segmentStops_streak

end Sys2Proof.Proofs
end

section
/-! Every command, by its row: the fault streaks stay below their thresholds (R95, R103, R111). -/

namespace Sys2Proof.Proofs

open Sys2Proof.Machine Sys2Proof.Safety Sys2Proof.Spec

/-! ## Operations of the whole part -/

/-- A step of the part that keeps every streak, where every controller is as its state allows. -/
structure StreakStep (s t : State) : Prop where
  part : PartStep s t
  streaks : ControllersOk s → StreaksOk s → StreaksOk t

namespace StreakStep
variable {s t u : State}

theorem refl (s : State) : StreakStep s s := ⟨.refl s, fun _ h => h⟩

theorem trans (h : StreakStep s t) (k : StreakStep t u) : StreakStep s u :=
  ⟨h.part.trans k.part, fun hc hs => k.streaks (h.part.controllers hc) (h.streaks hc hs)⟩

/-- An operation that leaves the controllers. -/
theorem of_ctls (part : PartStep s t) (hctls : t.ctls = s.ctls) : StreakStep s t := by
  refine ⟨part, fun _ hs q => ?_⟩
  have hctl : ctl q t = ctl q s := congrArg (getAt · q) hctls
  rw [hctl]
  exact hs q

/-- An operation that leaves queues, controllers and the course of a soft reset. -/
theorem of_same (hqueues : t.queues = s.queues) (hctls : t.ctls = s.ctls) (hresetting : t.resetting = s.resetting)
    (hundelivered : t.undelivered = s.undelivered) : StreakStep s t :=
  of_ctls (.of_same hqueues hctls hresetting hundelivered) hctls

/-- An operation of the Mirror Table or the Refresh Scheduler changes of a controller its busy wait alone. -/
theorem of_mirror (h : MirrorStep s t) : StreakStep s t := by
  refine ⟨.of_mirror h, fun _ hs q => ?_⟩
  obtain ⟨_, hctl⟩ := h.waits q
  rw [hctl]
  exact streakOk_of_same (hs q) rfl rfl rfl

/-- An operation of one segment: the others are as they were. -/
theorem of_segment {seg : SegId} (h : SegStep seg s t) (k : KeepsStreak seg s t) : StreakStep s t := by
  refine ⟨h.part, fun hc hs q => ?_⟩
  by_cases hq : q = seg
  · subst hq
    exact k (hc q) (hs q)
  · rw [h.line.ctlNe q hq]
    exact hs q

/-- A change of one controller that leaves what Table 6.1 and the streak look at. -/
theorem modCtl {seg : SegId} {f : Controller → Controller}
    (hok : ∀ w q, ControllerOk w (ctl seg s) q → ControllerOk w (f (ctl seg s)) q)
    (hcfg : (f (ctl seg s)).cfg = (ctl seg s).cfg) (hstreak : (f (ctl seg s)).streak = (ctl seg s).streak)
    (hstate : (f (ctl seg s)).state = (ctl seg s).state) : StreakStep s (modCtl seg f s) :=
  of_segment (SegStep.modCtl hok) (KeepsStreak.modCtl hcfg hstreak hstate)

end StreakStep

/-! ## Receptions (R99, R100, R134, R137) -/

/-- A change of the controller in a foreign frame, to one of the two states of such a frame. -/
theorem modCtl_foreign_streakStep {seg : SegId} {f : Controller → Controller} {s : State}
    (hforeign : inForeignFrame (ctl seg s).state = true) (hstate : inForeignFrame (f (ctl seg s)).state = true)
    (hown : (f (ctl seg s)).own = (ctl seg s).own) (hrecovery : (f (ctl seg s)).recovery = (ctl seg s).recovery)
    (hcfg : (f (ctl seg s)).cfg = (ctl seg s).cfg) (hstreak : (f (ctl seg s)).streak = (ctl seg s).streak) :
    StreakStep s (modCtl seg f s) := by
  refine ⟨modCtl_foreign_part hforeign hstate hown hrecovery, fun _ hs q => ?_⟩
  by_cases hq : q = seg
  · subst hq
    have honline := online_of_acceptsJobs (hs q) (acceptsJobs_of_inForeignFrame hforeign)
    refine (online_modCtl honline hcfg hstreak fun e => ?_).ok
    rw [e] at hstate
    cases hstate
  · rw [ctl_modCtl_ne _ _ _ hq]
    exact hs q

theorem decideAddress_streakStep {seg : SegId} (byte : Byte) {s : State}
    (hforeign : inForeignFrame (ctl seg s).state = true) : StreakStep s (decideAddress seg byte s) := by
  unfold decideAddress
  split
  · exact .refl s
  · split
    · exact .refl s
    · split
      · exact .refl s
      · split
        · exact .of_same rfl rfl rfl rfl
        · exact (StreakStep.of_ctls (setReception_part seg _ s) rfl).trans
            (modCtl_foreign_streakStep hforeign rfl rfl rfl rfl rfl)

theorem addressByteDecisionEvent_streakStep (seg : SegId) (byte : Byte) (s : State) :
    StreakStep s (addressByteDecisionEvent seg byte s) := by
  unfold addressByteDecisionEvent
  split
  · next hforeign =>
    refine (StreakStep.modCtl (fun _ _ h => h) rfl rfl rfl).trans (decideAddress_streakStep _ ?_)
    rw [ctl_modCtl_same, hforeign.1]
    rfl
  · exact .refl s

theorem foreignEnds_streakStep {seg : SegId} {s : State} (hforeign : inForeignFrame (ctl seg s).state = true) :
    StreakStep s (foreignEnds seg s) :=
  .of_segment (foreignEnds_segStep hforeign)
    (.of_online (acceptsJobs_of_inForeignFrame hforeign) foreignEnds_streak)

theorem receptionEndEvent_streakStep (seg : SegId) (bytes : List Byte) (ending : ReceptionEnding) (s : State) :
    StreakStep s (receptionEndEvent seg bytes ending s) := by
  unfold receptionEndEvent
  split
  · next r hstate _ =>
    dsimp only
    have hreceived : StreakStep s (modCtl seg (receiveBytes bytes) s) := .modCtl (fun _ _ h => h) rfl rfl rfl
    obtain ⟨hqueues, hctls, hresetting, hundelivered⟩ := endReception_frame seg r (modCtl seg (receiveBytes bytes) s)
    have hended := hreceived.trans (.of_same hqueues hctls hresetting hundelivered)
    have hforeign : inForeignFrame (ctl seg (endReception seg r (modCtl seg (receiveBytes bytes) s))).state = true := by
      have hctl : ctl seg (endReception seg r (modCtl seg (receiveBytes bytes) s)) = receiveBytes bytes (ctl seg s) :=
        (congrArg (getAt · seg) hctls).trans (ctl_modCtl_same _ _ _)
      rw [hctl, receiveBytes_state, hstate]
      rfl
    split
    · exact hended.trans (foreignEnds_streakStep hforeign)
    · exact hended.trans (modCtl_foreign_streakStep hforeign rfl rfl rfl rfl rfl)
  · exact .refl s

theorem foreignBegins_streakStep {seg : SegId} {s : State} (hstate : (ctl seg s).state ≠ .recovering)
    (haccepts : refusesJobs (ctl seg s).state = false) : StreakStep s (foreignBegins seg s) :=
  .of_segment (foreignBegins_segStep hstate) (.of_online haccepts foreignBegins_streak)

theorem foreignStartEvent_streakStep (seg : SegId) (s : State) : StreakStep s (foreignStartEvent seg s) := by
  unfold foreignStartEvent
  split
  iterate 3
    next hstate => exact foreignBegins_streakStep (by rw [hstate]; decide) (by rw [hstate]; rfl)
  · next hstate =>
    split
    · exact foreignBegins_streakStep (by rw [hstate]; decide) (by rw [hstate]; rfl)
    all_goals exact .refl s
  · exact .modCtl (fun _ _ h => h) rfl rfl rfl
  · exact receptionEndEvent_streakStep seg [] .repeatedStart s
  all_goals exact .refl s

theorem foreignStopEvent_streakStep (seg : SegId) (s : State) : StreakStep s (foreignStopEvent seg s) := by
  unfold foreignStopEvent
  split
  · next hstate => exact foreignEnds_streakStep (by rw [hstate]; rfl)
  · exact receptionEndEvent_streakStep seg [] .stop s
  all_goals exact .refl s

/-! ## Reports and due timers at the Mirror Table -/

theorem modActive_streakStep (seg : SegId) (f : ActiveJob → ActiveJob) (s : State) : StreakStep s (modActive seg f s) :=
  .of_segment (modActive_segStep seg f s) (.modCtl rfl rfl rfl)

theorem startTaken_streakStep (e : EntryId) (r : JobRef) (s : State) : StreakStep s (startTaken e r s) := by
  unfold startTaken
  dsimp only
  split
  · exact .refl s
  · split
    · split
      · exact (StreakStep.modCtl (fun _ _ h => h) rfl rfl rfl).trans (modActive_streakStep _ _ _)
      all_goals exact modActive_streakStep _ _ s
    · exact .refl s

/-- A report in flight is taken: the reports are no matter of the streaks. -/
theorem reports_streakStep (rs : List Report) (s : State) : StreakStep s { s with reports := rs } :=
  .of_same rfl rfl rfl rfl

theorem startReportEvent_streakStep (e : EntryId) (s : State) : StreakStep s (startReportEvent e s) := by
  unfold startReportEvent
  split
  · exact ((reports_streakStep _ s).trans (.of_mirror (modEntry_step e _ _))).trans (startTaken_streakStep e _ _)
  all_goals exact .refl s

theorem refreshCompletionEvent_streakStep (e : EntryId) (s : State) : StreakStep s (refreshCompletionEvent e s) := by
  unfold refreshCompletionEvent
  split
  · split
    · exact (reports_streakStep _ s).trans (.of_mirror (takeRefresh_step e _ _))
    · exact .refl s
  all_goals exact .refl s

theorem memberRefreshCompletionEvent_streakStep (e : EntryId) (s : State) :
    StreakStep s (memberRefreshCompletionEvent e s) := by
  unfold memberRefreshCompletionEvent
  split
  · split
    · exact .refl s
    · split
      · exact (reports_streakStep _ s).trans (.of_mirror (takeMemberRefresh_step e _ _ _))
      · exact .refl s
  all_goals exact .refl s

theorem writeCompletionEvent_streakStep (e : EntryId) (s : State) : StreakStep s (writeCompletionEvent e s) := by
  unfold writeCompletionEvent
  split
  · dsimp only
    split
    · split
      · exact (reports_streakStep _ s).trans (.of_mirror (enabledWrite_step e _ _))
      · exact (reports_streakStep _ s).trans (.of_mirror ((modEntry_step e _ _).trans (reachDisabled_step e _)))
      · exact reports_streakStep _ s
    · exact .refl s
  all_goals exact .refl s

theorem slotCompletionEvent_streakStep (k : SlotId) (s : State) : StreakStep s (slotCompletionEvent k s) := by
  refine .of_ctls (slotCompletionEvent_part k s) ?_
  unfold slotCompletionEvent
  split <;> rfl

theorem deviceNoticeEvent_streakStep (s : State) : StreakStep s (deviceNoticeEvent s) := by
  unfold deviceNoticeEvent
  split
  · exact .refl s
  · next n rest _ =>
    have htaken : StreakStep s { s with notices := rest } := .of_same rfl rfl rfl rfl
    exact htaken.trans (.of_mirror (takeNotice_step n _))

theorem entryDueExpiryEvent_streakStep (e : EntryId) (s : State) : StreakStep s (entryDueExpiryEvent e s) := by
  unfold entryDueExpiryEvent
  split
  · split
    · exact .of_mirror (entryExpiry_step e _ s)
    · exact .refl s
  · exact .refl s

theorem groupDueExpiryEvent_streakStep (g : GroupId) (s : State) : StreakStep s (groupDueExpiryEvent g s) := by
  unfold groupDueExpiryEvent
  split
  · split
    · exact .of_mirror (groupExpiry_step g _ s)
    · exact .refl s
  · exact .refl s

/-! ## Resets and the timebase -/

/-- What passes on the lines is no matter of the streaks (R92). -/
theorem linesPass_streakStep (ws : List LineReport) (s : State) : StreakStep s (linesPass ws s) :=
  ⟨linesPass_part ws s, fun _ hs q => ((takeLineReports_same ws s).2 q).streak (hs q)⟩

theorem tick_streakStep (ws : List LineReport) (s : State) : StreakStep s (tick ws s) :=
  (linesPass_streakStep ws s).trans (.of_same rfl rfl rfl rfl)

theorem nextDelivery_streakStep (s : State) : StreakStep s (nextDelivery s) := ⟨nextDelivery_part s, nextDelivery_streaks⟩

theorem nextDeliveries_streakStep (n : Nat) (s : State) : StreakStep s (nextDeliveries n s) := by
  induction n generalizing s with
  | zero => exact .refl s
  | succ n ih => exact (nextDelivery_streakStep s).trans (ih _)

theorem softReset_streakStep (taken : Fin 21) (u : Unit) {s : State} (hr : s.resetting = false) :
    StreakStep s (softReset taken u s).1 :=
  StreakStep.trans (.of_ctls (softReset_part 0 u hr) rfl) (nextDeliveries_streakStep taken.val _)

/-- After pin reset every segment is OFFLINE with streak 0. -/
theorem pinReset_streakStep (s : State) : StreakStep s (pinReset s) := by
  refine ⟨pinReset_part s, fun _ _ q => ?_⟩
  have hctl : ctl q (pinReset s) = Controller.reset := getAt_replicate _ q
  rw [hctl]
  exact streakOk_offline Controller.reset

/-! ## The Command Port (R146, R147) -/

theorem outOfReset_streakStep {f : State → State} (h : ∀ s, StreakStep s (f s)) (s : State) :
    StreakStep s (outOfReset f s) := by
  unfold outOfReset
  split
  · exact .refl s
  · exact h s

/-- An event of one segment, which takes place while RESETn is released. -/
theorem outOfReset_keepsStreak {f : State → State} {seg : SegId} (h : ∀ s, SegStep seg s (f s))
    (k : ∀ s, KeepsStreak seg s (f s)) (s : State) : StreakStep s (outOfReset f s) :=
  outOfReset_streakStep (fun s => .of_segment (h s) (k s)) s

theorem answerCommand_streakStep (code : Byte) (tag : Half) (a : Answer) (s : State) :
    StreakStep s (answerCommand code tag a s) := by
  cases a <;> exact .of_same rfl rfl rfl rfl

/-- A command with a known code is its owner's, who finds the part not RESETTING. -/
theorem portCommand_streakStep {α : Type} {owner : α → State → State × Answer}
    (h : ∀ i s, s.resetting = false → StreakStep s (owner i s).1) (code arg : Byte) (tag : Half) (index : Option α)
    (s : State) : StreakStep s (portCommand code arg tag index owner s) := by
  have hword : StreakStep s { s with command := commandWord code arg tag } := .of_same rfl rfl rfl rfl
  unfold portCommand
  split
  · exact .refl s
  · dsimp only
    split
    · exact hword.trans (answerCommand_streakStep _ _ _ _)
    · next hr =>
      split
      · exact hword.trans (answerCommand_streakStep _ _ _ _)
      · exact (hword.trans (h _ _ (Bool.eq_false_iff.2 hr))).trans (answerCommand_streakStep _ _ _ _)

/-! ### The owners -/

theorem slotSubmit_streakStep (k : SlotId) (s : State) : StreakStep s (slotSubmit k s).1 := by
  have hadmit := StreakStep.of_mirror
    (admit_step (slot k s).seg { ref := .direct k, cls := .urgent, tag := none, attempts := 0#3 } s)
  unfold slotSubmit
  split
  · exact .refl s
  · split
    · exact .refl s
    · revert hadmit
      split <;> next heq => rw [heq]; intro hadmit; exact hadmit.trans (.of_same rfl rfl rfl rfl)

/-- An OFFLINE or QUARANTINED segment has no job to abort. -/
theorem abortRequest_streakStep (seg : SegId) (k : SlotId) (s : State) : StreakStep s (abortRequest seg k s) :=
  .of_segment (abortRequest_segStep seg k s) fun ⟨_, hjob, _⟩ hs => abortRequest_streak k hs hjob

theorem slotCancel_streakStep (k : SlotId) (s : State) : StreakStep s (slotCancel k s).1 := by
  unfold slotCancel
  split
  · exact .refl s
  · exact .refl s
  · exact (StreakStep.of_mirror (removeJob_step _ _ s)).trans (.of_same rfl rfl rfl rfl)
  · split
    · exact .refl s
    · exact (StreakStep.of_ctls (modSlot_part k _ s) rfl).trans (abortRequest_streakStep _ k _)

theorem slotRelease_streakStep (k : SlotId) (s : State) : StreakStep s (slotRelease k s).1 := by
  refine .of_ctls (slotRelease_part k s) ?_
  unfold slotRelease
  split <;> rfl

theorem listenEnable_streakStep (i : ListenId) (s : State) : StreakStep s (listenEnable i s).1 := by
  refine .of_ctls (listenEnable_part i s) ?_
  unfold listenEnable
  split
  · rfl
  · split <;> rfl

theorem listenDisable_streakStep (i : ListenId) (s : State) : StreakStep s (listenDisable i s).1 := by
  refine .of_ctls (listenDisable_part i s) ?_
  unfold listenDisable
  split <;> rfl

theorem capturePop_streakStep (u : Unit) (s : State) : StreakStep s (capturePop u s).1 := by
  refine .of_ctls (capturePop_part u s) ?_
  unfold capturePop
  split <;> rfl

/-! ### Full writes of the command word -/

section
variable (arg : Byte) (tag : Half) (s : State)

theorem commandEntryEnable_streakStep : StreakStep s (commandEntryEnable arg tag s) :=
  portCommand_streakStep (fun e s _ => .of_mirror (entryEnable_step e s)) _ _ _ _ s

theorem commandEntryDisable_streakStep : StreakStep s (commandEntryDisable arg tag s) :=
  portCommand_streakStep (fun e s _ => .of_mirror (entryDisable_step e s)) _ _ _ _ s

theorem commandEntryRefresh_streakStep : StreakStep s (commandEntryRefresh arg tag s) :=
  portCommand_streakStep (fun e s _ => .of_mirror (entryRefresh_step e s)) _ _ _ _ s

theorem commandEntryCommit_streakStep : StreakStep s (commandEntryCommit arg tag s) :=
  portCommand_streakStep (fun e s _ => .of_mirror (entryCommit_step e s)) _ _ _ _ s

theorem commandEntryAckFault_streakStep : StreakStep s (commandEntryAckFault arg tag s) :=
  portCommand_streakStep (fun e s _ => .of_mirror (entryAckFault_step e s)) _ _ _ _ s

theorem commandGroupSweep_streakStep : StreakStep s (commandGroupSweep arg tag s) :=
  portCommand_streakStep (fun g s _ => .of_mirror (groupSweep_step g s)) _ _ _ _ s

theorem commandSegmentOnline_streakStep (sense : SegmentSense) : StreakStep s (commandSegmentOnline arg tag sense s) :=
  portCommand_streakStep (fun q s _ => .of_segment (segmentOnline_segStep sense q s) (segmentOnline_streak sense q s))
    _ _ _ _ s

theorem commandSegmentOffline_streakStep : StreakStep s (commandSegmentOffline arg tag s) :=
  portCommand_streakStep (fun q s _ => .of_segment (segmentOffline_segStep q s) (segmentOffline_streak q s)) _ _ _ _ s

theorem commandSegmentRestore_streakStep (sense : RecoverySense) :
    StreakStep s (commandSegmentRestore arg tag sense s) :=
  portCommand_streakStep (fun q s _ => .of_segment (segmentRestore_segStep sense q s) (segmentRestore_streak sense q s))
    _ _ _ _ s

theorem commandSlotSubmit_streakStep : StreakStep s (commandSlotSubmit arg tag s) :=
  portCommand_streakStep (fun k s _ => slotSubmit_streakStep k s) _ _ _ _ s

theorem commandSlotCancel_streakStep : StreakStep s (commandSlotCancel arg tag s) :=
  portCommand_streakStep (fun k s _ => slotCancel_streakStep k s) _ _ _ _ s

theorem commandSlotRelease_streakStep : StreakStep s (commandSlotRelease arg tag s) :=
  portCommand_streakStep (fun k s _ => slotRelease_streakStep k s) _ _ _ _ s

theorem commandListenEnable_streakStep : StreakStep s (commandListenEnable arg tag s) :=
  portCommand_streakStep (fun i s _ => listenEnable_streakStep i s) _ _ _ _ s

theorem commandListenDisable_streakStep : StreakStep s (commandListenDisable arg tag s) :=
  portCommand_streakStep (fun i s _ => listenDisable_streakStep i s) _ _ _ _ s

theorem commandCapturePop_streakStep : StreakStep s (commandCapturePop arg tag s) :=
  portCommand_streakStep (fun u s _ => capturePop_streakStep u s) _ _ _ _ s

theorem commandCaptureFlush_streakStep : StreakStep s (commandCaptureFlush arg tag s) :=
  portCommand_streakStep (fun u s _ => .of_ctls (captureFlush_part u s) rfl) _ _ _ _ s

theorem commandSoftReset_streakStep (taken : Fin 21) : StreakStep s (commandSoftReset arg tag taken s) :=
  portCommand_streakStep (fun u _ hr => softReset_streakStep taken u hr) _ _ _ _ s

theorem issueCommand_streakStep (code : Byte) : StreakStep s (issueCommand code arg tag s) := by
  have hdraw : StreakStep s (drawSense s) := .of_same rfl rfl rfl rfl
  unfold issueCommand
  split
  · exact .refl s
  · split
    · exact commandEntryEnable_streakStep arg tag s
    · exact commandEntryDisable_streakStep arg tag s
    · exact commandEntryRefresh_streakStep arg tag s
    · exact commandEntryCommit_streakStep arg tag s
    · exact commandEntryAckFault_streakStep arg tag s
    · exact commandGroupSweep_streakStep arg tag s
    · exact hdraw.trans (commandSegmentOnline_streakStep arg tag _ _)
    · exact commandSegmentOffline_streakStep arg tag s
    · exact hdraw.trans (commandSegmentRestore_streakStep arg tag _ _)
    · exact commandSlotSubmit_streakStep arg tag s
    · exact commandSlotCancel_streakStep arg tag s
    · exact commandSlotRelease_streakStep arg tag s
    · exact commandListenEnable_streakStep arg tag s
    · exact commandListenDisable_streakStep arg tag s
    · exact commandCapturePop_streakStep arg tag s
    · exact commandCaptureFlush_streakStep arg tag s
    · exact commandSoftReset_streakStep arg tag s 20
    · exact .of_same rfl rfl rfl rfl

end

/-! ## Host accesses (R155 to R158) -/

theorem storeGroupPeriod_streakStep (g : GroupId) (period : Half) (s : State) :
    StreakStep s (storeGroupPeriod g period s) := by
  have hstored : MirrorStep s (modGroup g (fun x => { x with period := period }) s) := modGroup_step g _ s
  unfold storeGroupPeriod
  dsimp only
  split
  · exact .of_mirror (hstored.trans (groupExpiry_step g _ _))
  · exact .of_mirror hstored

theorem storeGlobal_streakStep (g : GlobalWord) (data : Word) (s : State) : StreakStep s (storeGlobal g data s) := by
  unfold storeGlobal
  split
  · exact issueCommand_streakStep _ _ s _
  all_goals exact .of_same rfl rfl rfl rfl

/-- A segment's configuration is stored while it is OFFLINE: its streak 0 does not depend on it (R95, Table 10.1). -/
theorem storeSegConfig_streakStep {q : SegId} (f : SegConfig → SegConfig) {s : State} (hoff : (ctl q s).state = .offline) :
    StreakStep s (modCtl q (fun c => { c with cfg := f c.cfg }) s) := by
  refine .of_segment (SegStep.modCtl fun _ _ h => h) fun _ ⟨hzero, _, _⟩ => ?_
  rw [ctl_modCtl_same]
  exact ⟨hzero, fun h => absurd hoff h, fun h => absurd hoff h⟩

theorem storeLoc_streakStep {l : Loc} (be : BitVec 4) (data : Word) {s : State} (hl : locked l s = false) :
    StreakStep s (storeLoc l be data s) := by
  unfold storeLoc
  split
  · exact storeGlobal_streakStep _ data s
  · exact storeSegConfig_streakStep _ (by simpa [locked] using hl)
  · exact storeSegConfig_streakStep _ (by simpa [locked] using hl)
  · exact storeGroupPeriod_streakStep _ _ s
  all_goals exact .of_same rfl rfl rfl rfl

/-- A write that is no access error is not one of a locked word (Table 10.1). -/
theorem locked_of_writeError_none {l : Loc} {be : BitVec 4} {s : State} (h : writeError (some l) be s = none) :
    locked l s = false := by
  unfold writeError at h
  dsimp only at h
  split_ifs at h
  next hl _ => exact Bool.eq_false_iff.2 hl

theorem writeWord_streakStep (l : Option Loc) (a : Addr) (be : BitVec 4) (data : Word) (s : State) :
    StreakStep s (writeWord l a be data s) := by
  unfold writeWord
  split
  · exact .refl s
  · split
    · next herror => exact storeLoc_streakStep be data (locked_of_writeError_none herror)
    · exact .of_same rfl rfl rfl rfl
    · exact .refl s

theorem hostRead_streakStep (a : Addr) (s : State) : StreakStep s (hostRead a s) := by
  refine .of_ctls (hostRead_part a s) ?_
  unfold hostRead
  dsimp only
  split <;> rfl

/-! ## Every command -/

/-- A command answers a next state with the streaks as the invariant says. -/
theorem exec_streakStep (i : Instr) (s : State) : ∃ t, exec i s = .next t ∧ StreakStep s t := by
  have hlines (reports : List LineReport) := outOfReset_streakStep (linesPass_streakStep reports) s
  cases i with
  | entryEnable arg tag => exact ⟨_, rfl, commandEntryEnable_streakStep arg tag s⟩
  | entryDisable arg tag => exact ⟨_, rfl, commandEntryDisable_streakStep arg tag s⟩
  | entryRefresh arg tag => exact ⟨_, rfl, commandEntryRefresh_streakStep arg tag s⟩
  | entryCommit arg tag => exact ⟨_, rfl, commandEntryCommit_streakStep arg tag s⟩
  | entryAckFault arg tag => exact ⟨_, rfl, commandEntryAckFault_streakStep arg tag s⟩
  | groupSweep arg tag => exact ⟨_, rfl, commandGroupSweep_streakStep arg tag s⟩
  | segmentOnline arg tag sense => exact ⟨_, rfl, commandSegmentOnline_streakStep arg tag s sense⟩
  | segmentOffline arg tag => exact ⟨_, rfl, commandSegmentOffline_streakStep arg tag s⟩
  | segmentRestore arg tag sense => exact ⟨_, rfl, commandSegmentRestore_streakStep arg tag s sense⟩
  | slotSubmit arg tag => exact ⟨_, rfl, commandSlotSubmit_streakStep arg tag s⟩
  | slotCancel arg tag reports => exact ⟨_, rfl, (hlines reports).trans (commandSlotCancel_streakStep arg tag _)⟩
  | slotRelease arg tag => exact ⟨_, rfl, commandSlotRelease_streakStep arg tag s⟩
  | listenEnable arg tag => exact ⟨_, rfl, commandListenEnable_streakStep arg tag s⟩
  | listenDisable arg tag => exact ⟨_, rfl, commandListenDisable_streakStep arg tag s⟩
  | capturePop arg tag => exact ⟨_, rfl, commandCapturePop_streakStep arg tag s⟩
  | captureFlush arg tag => exact ⟨_, rfl, commandCaptureFlush_streakStep arg tag s⟩
  | softReset arg tag reports taken =>
    exact ⟨_, rfl, (hlines reports).trans (commandSoftReset_streakStep arg tag _ taken)⟩
  | unknownCommand code arg tag => exact ⟨_, rfl, issueCommand_streakStep arg tag s code⟩
  | stagingBufferWrite e w be data => exact ⟨_, rfl, writeWord_streakStep _ _ be data s⟩
  | groupPeriodWrite r be data => exact ⟨_, rfl, writeWord_streakStep _ _ be data s⟩
  | eventFlagWrite be data => exact ⟨_, rfl, writeWord_streakStep _ _ be data s⟩
  | eventEnableWrite be data => exact ⟨_, rfl, writeWord_streakStep _ _ be data s⟩
  | accessErrorRecordClear be data => exact ⟨_, rfl, writeWord_streakStep _ _ be data s⟩
  | accessErrorCountClear be data => exact ⟨_, rfl, writeWord_streakStep _ _ be data s⟩
  | hostWrite a be data => exact ⟨_, rfl, writeWord_streakStep _ a be data s⟩
  | unmappedRead a => exact ⟨_, rfl, hostRead_streakStep a s⟩
  | pinReset => exact ⟨_, rfl, pinReset_streakStep s⟩
  | pinResetRelease => exact ⟨_, rfl, .of_same rfl rfl rfl rfl⟩
  | timebaseTick reports => exact ⟨_, rfl, outOfReset_streakStep (tick_streakStep reports) s⟩
  | entryDueExpiry e => exact ⟨_, rfl, outOfReset_streakStep (entryDueExpiryEvent_streakStep e) s⟩
  | groupDueExpiry g => exact ⟨_, rfl, outOfReset_streakStep (groupDueExpiryEvent_streakStep g) s⟩
  | selection q => exact ⟨_, rfl, outOfReset_keepsStreak (selectionEvent_segStep q) (selectionEvent_streak q) s⟩
  | startReport e => exact ⟨_, rfl, outOfReset_streakStep (startReportEvent_streakStep e) s⟩
  | attemptBegin q lines sense =>
    exact ⟨_, rfl, outOfReset_keepsStreak (attemptBeginEvent_segStep q lines sense)
      (attemptBeginEvent_streak q lines sense) s⟩
  | frameEnd q wire => exact ⟨_, rfl, outOfReset_keepsStreak (frameEndEvent_segStep q wire) (frameEndEvent_streak q wire) s⟩
  | frameEndedEarly q wire =>
    exact ⟨_, rfl, outOfReset_keepsStreak (frameEndedEarlyEvent_segStep q wire) (frameEndedEarlyEvent_streak q wire) s⟩
  | arbitrationLoss q wire p =>
    exact ⟨_, rfl, outOfReset_keepsStreak (arbitrationLossEvent_segStep q wire p) (arbitrationLossEvent_streak q wire p) s⟩
  | holdTimeout q wire =>
    exact ⟨_, rfl, outOfReset_keepsStreak (holdTimeoutEvent_segStep q wire) (holdTimeoutEvent_streak q wire) s⟩
  | stopAttemptEnd q =>
    exact ⟨_, rfl, outOfReset_keepsStreak (stopAttemptEndEvent_segStep q) (stopAttemptEndEvent_streak q) s⟩
  | stopAttemptTimeout q sense =>
    exact ⟨_, rfl, outOfReset_keepsStreak (stopAttemptTimeoutEvent_segStep q sense)
      (stopAttemptTimeoutEvent_streak q sense) s⟩
  | settleEnd q => exact ⟨_, rfl, outOfReset_keepsStreak (settleEndEvent_segStep q) (settleEndEvent_streak q) s⟩
  | backoffEnd q => exact ⟨_, rfl, outOfReset_keepsStreak (backoffEndEvent_segStep q) (backoffEndEvent_streak q) s⟩
  | busyLimitExpiry q =>
    exact ⟨_, rfl, outOfReset_keepsStreak (busyLimitExpiryEvent_segStep q) (busyLimitExpiryEvent_streak q) s⟩
  | foreignStart q => exact ⟨_, rfl, outOfReset_streakStep (foreignStartEvent_streakStep q) s⟩
  | foreignStop q => exact ⟨_, rfl, outOfReset_streakStep (foreignStopEvent_streakStep q) s⟩
  | addressByteDecision q byte => exact ⟨_, rfl, outOfReset_streakStep (addressByteDecisionEvent_streakStep q byte) s⟩
  | receptionEnd q bytes ending =>
    exact ⟨_, rfl, outOfReset_streakStep (receptionEndEvent_streakStep q bytes ending) s⟩
  | deviceNotice => exact ⟨_, rfl, outOfReset_streakStep deviceNoticeEvent_streakStep s⟩
  | refreshCompletion e => exact ⟨_, rfl, outOfReset_streakStep (refreshCompletionEvent_streakStep e) s⟩
  | memberRefreshCompletion e => exact ⟨_, rfl, outOfReset_streakStep (memberRefreshCompletionEvent_streakStep e) s⟩
  | writeCompletion e => exact ⟨_, rfl, outOfReset_streakStep (writeCompletionEvent_streakStep e) s⟩
  | slotCompletion k => exact ⟨_, rfl, outOfReset_streakStep (slotCompletionEvent_streakStep k) s⟩
  | releasePulse q lines after =>
    exact ⟨_, rfl, outOfReset_keepsStreak (releasePulseEvent_segStep q lines after) (releasePulseEvent_streak q lines after) s⟩
  | lineClearHoldEnd q lines after =>
    exact ⟨_, rfl, outOfReset_keepsStreak (lineClearHoldEndEvent_segStep q lines after)
      (lineClearHoldEndEvent_streak q lines after) s⟩
  | recoveryHoldTimeout q =>
    exact ⟨_, rfl, outOfReset_keepsStreak (recoveryHoldTimeoutEvent_segStep q) (recoveryHoldTimeoutEvent_streak q) s⟩
  | clockLineSensedHigh q sda sense =>
    exact ⟨_, rfl, outOfReset_keepsStreak (clockLineSensedHighEvent_segStep q sda sense)
      (clockLineSensedHighEvent_streak q sda sense) s⟩
  | recoveryLinesSensedHigh q sda after =>
    exact ⟨_, rfl, outOfReset_keepsStreak (recoveryLinesSensedHighEvent_segStep q sda after)
      (recoveryLinesSensedHighEvent_streak q sda after) s⟩

/-- A step takes the front command, or on an empty queue the next delivery of a soft reset. -/
theorem step_streakStep {s t : State} (h : step s = .next t) : StreakStep s t := by
  unfold step at h
  split at h
  · cases h
    exact outOfReset_streakStep nextDelivery_streakStep s
  · next c rest _ =>
    obtain ⟨u, hu, hstreak⟩ := exec_streakStep c { s with pending := rest }
    rw [hu] at h
    cases h
    have htaken : StreakStep s { s with pending := rest } := .of_same rfl rfl rfl rfl
    exact htaken.trans hstreak

/-- Settles O59: every command is a step that keeps the streaks. -/
theorem streaksStayBelowTheThreshold : Obligations.StreaksStayBelowTheThreshold :=
  fun _ _ hcontrollers hstreaks h => (step_streakStep h).streaks hcontrollers hstreaks

end Sys2Proof.Proofs
end

section
/-! Completions, attempt results and retries at a Segment Controller, in the words of the rules (R103 to R105, R107, R108, R112,
R113, R115). -/

namespace Sys2Proof.Proofs

open Sys2Proof.Machine Sys2Proof.Safety Sys2Proof.Spec

/-! ## Completions (R107) -/

section
variable {q : SegId} {s : State}

theorem completeJob_of_no_job (o : FrameOutcome) (used : BitVec 4) (ha : (ctl q s).active = none) :
    completeJob q o used s = s := by
  rw [completeJob, ha]

theorem completeAttempt_of_no_job (o : FrameOutcome) (ha : (ctl q s).active = none) : completeAttempt q o s = s := by
  rw [completeAttempt, ha]

/-- In a foreign frame the controller stays, with a new busy wait if jobs wait (R98). -/
theorem afterCompletion_of_foreign (h : foreignNow (ctl q s)) :
    afterCompletion q s
      = modCtl q (fun c => { c with busySince := if occupancy (queue q s) = 0 then none else some s.timebase }) s := by
  rcases h with h | h <;> rw [afterCompletion, h]

theorem afterCompletion_of_recovering (h : (ctl q s).state = .recovering) : afterCompletion q s = s := by
  rw [afterCompletion, h]

theorem afterCompletion_to_idle
    (h : (ctl q s).state = .idle ∨ (ctl q s).state = .active ∨ (ctl q s).state = .settle ∨ (ctl q s).state = .backoff) :
    afterCompletion q s = modCtl q (fun c => { c with state := .idle, own := .quiet }) s := by
  rcases h with h | h | h | h <;> rw [afterCompletion, h]

end

/-- Settles O30: the completion with and without a job, then the controller by its state. -/
theorem completionsCarryTheOutcome : Obligations.CompletionsCarryTheOutcome := fun _ o used _ =>
  ⟨fun _ ha => ⟨completeJob_eq_finished o used ha, completeAttempt_eq_finished o ha⟩,
    fun ha => ⟨completeJob_of_no_job o used ha, completeAttempt_of_no_job o ha⟩,
    afterCompletion_of_foreign, afterCompletion_of_recovering, afterCompletion_to_idle, afterCompletion_of_stopping⟩

/-! ## Attempt results and quarantine (R103, R105, R108) -/

theorem quarantine_eq_quarantined (q : SegId) (o : FrameOutcome) (s : State) : quarantine q o s = quarantined q o s := by
  unfold quarantine quarantined
  rw [flushReportsEveryJob]
  cases ha : (ctl q s).active with
  | none =>
    rw [completeAttempt_of_no_job o ha]
    rfl
  | some a =>
    rw [completeAttempt_eq_finished o ha]
    rfl

theorem countedResult_eq_resultTaken (q : SegId) (r : Result) (s : State) : countedResult q r s = resultTaken q r s :=
  modCtl_congr (by rw [streakAfter_eq_newStreak])

/-- An attempt result is recorded; at the threshold, or on SEGMENT_FAULT, it quarantines the segment (R105). -/
theorem takeResult_eq (q : SegId) (o : FrameOutcome) (goOn : State → State) (s : State) :
    takeResult q o goOn s
      = if newStreak o.result (ctl q s).streak = (ctl q s).cfg.threshold ∨ o.result = .segmentFault then
          quarantined q o (resultTaken q o.result s)
        else goOn (resultTaken q o.result s) := by
  have hctl : (ctl q (resultTaken q o.result s)).streak = newStreak o.result (ctl q s).streak
      ∧ (ctl q (resultTaken q o.result s)).cfg = (ctl q s).cfg := by
    rw [resultTaken, ctl_modCtl_same]
    exact ⟨rfl, rfl⟩
  have htaken : takeResult q o goOn s
      = if (ctl q (countedResult q o.result s)).streak = (ctl q (countedResult q o.result s)).cfg.threshold
            ∨ o.result = .segmentFault then
          quarantine q o (countedResult q o.result s)
        else goOn (countedResult q o.result s) := rfl
  rw [htaken, countedResult_eq_resultTaken, quarantine_eq_quarantined, hctl.1, hctl.2]

theorem segmentFault_eq_faulted (q : SegId) (s : State) : segmentFault q s = faulted q s := by
  rw [segmentFault, takeResult_eq, if_pos (.inr rfl)]
  rfl

/-- The controller in QUARANTINED: it holds no job and keeps its streak (R108). -/
theorem ctl_quarantined (q : SegId) (o : FrameOutcome) (s : State) :
    (ctl q (quarantined q o s)).state = .quarantined ∧ (ctl q (quarantined q o s)).streak = (ctl q s).streak
      ∧ (ctl q (quarantined q o s)).active = none := by
  obtain ⟨_, hcompleted⟩ := ctl_completeAttempt q o s
  have hcut : ctl q (cutReception q (completeAttempt q o s)) = ctl q (completeAttempt q o s) := rfl
  rw [← quarantine_eq_quarantined, quarantine, ctl_raise, ctl_modCtl_same, ctl_flush, hcut, hcompleted]
  exact ⟨rfl, rfl, rfl⟩

theorem queue_quarantined (q : SegId) (o : FrameOutcome) (s : State) : queue q (quarantined q o s) = SegQueue.reset := by
  rw [← quarantine_eq_quarantined, quarantine, queue_raise, queue_modCtl, queue_flush_same]

section
variable {q : SegId} {s : State} (h : (ctl q s).state = .quarantined)
include h

theorem driven_of_quarantined : driven q s = (.released, .released) := by
  simp only [driven, h]

theorem sensesLines_of_quarantined : sensesLines (ctl q s) = false := by
  rw [sensesLines, h]
  rfl

theorem requestAdmission_of_quarantined (j : Job) : (requestAdmission q j s).2 = .down := by
  rw [admit_answer, admissionAnswer, h]
  rfl

end

/-- Settles O32: the result by the streak it leaves, then QUARANTINED as it is entered. -/
theorem attemptResultsMayQuarantine : Obligations.AttemptResultsMayQuarantine := by
  intro q o goOn s
  dsimp only
  obtain ⟨hstate, hstreak, hjob⟩ := ctl_quarantined q o (resultTaken q o.result s)
  refine ⟨fun h => by rw [takeResult_eq, if_pos h],
    fun hstreak hresult => by rw [takeResult_eq, if_neg (not_or.2 ⟨hstreak, hresult⟩)],
    hstate, ?_, hjob, driven_of_quarantined hstate, sensesLines_of_quarantined hstate, ?_,
    requestAdmission_of_quarantined hstate⟩
  · rw [hstreak, resultTaken, ctl_modCtl_same]
  · rw [queue_quarantined]
    rfl

/-! ## Retries (R104, R113, R115) -/

/-- A controller that holds the job given. -/
def holding (a : ActiveJob) (c : Controller) : Controller := { c with active := some a }

/-- The job after a retryable attempt: its attempts field raised, the attempt's outcome kept (R104). -/
def attemptCounted (o : FrameOutcome) (a : ActiveJob) : ActiveJob :=
  { a with job := { a.job with attempts := a.job.attempts + 1#3 }, last := some o }

/-! ### The backoff of a held job -/

section
variable {q : SegId} {s : State} (a : ActiveJob)

/-- The backoff begins now, in BACKOFF outside a foreign frame. -/
theorem beginBackoff_holding (hback : (ctl q s).cfg.backoff ≠ 0#8) :
    beginBackoff q (modCtl q (holding a) s)
      = modCtl q (fun c =>
          { c with
            state := if inForeignFrame c.state then c.state else .backoff
            active := some { a with phase := .backoff s.timebase } }) s := by
  have hdelay : ¬ (holding a (ctl q s)).cfg.backoff = 0#8 := hback
  rw [beginBackoff, ctl_modCtl_same, if_neg hdelay, modActive, modCtl_modCtl, modCtl_modCtl, ctl_modCtl_same]
  exact modCtl_congr rfl

theorem beginBackoff_holding_of_foreign (hback : (ctl q s).cfg.backoff ≠ 0#8) (hforeign : foreignNow (ctl q s)) :
    beginBackoff q (modCtl q (holding a) s)
      = modCtl q (fun c => { c with active := some { a with phase := .backoff s.timebase } }) s :=
  (beginBackoff_holding a hback).trans
    (modCtl_congr (by simp only [(inForeignFrame_iff (ctl q s)).2 hforeign, if_true]))

theorem beginBackoff_holding_of_own (hback : (ctl q s).cfg.backoff ≠ 0#8) (hforeign : ¬ foreignNow (ctl q s)) :
    beginBackoff q (modCtl q (holding a) s)
      = modCtl q (fun c => { c with state := .backoff, active := some { a with phase := .backoff s.timebase } }) s :=
  (beginBackoff_holding a hback).trans
    (modCtl_congr (by simp only [if_neg (mt (inForeignFrame_iff (ctl q s)).1 hforeign)]))

section
variable (hback : (ctl q s).cfg.backoff = 0#8)
include hback

theorem beginBackoff_holding_zero :
    beginBackoff q (modCtl q (holding a) s) = attemptDue q (modCtl q (holding a) s) := by
  have hzero : (holding a (ctl q s)).cfg.backoff = 0#8 := hback
  rw [beginBackoff, ctl_modCtl_same, if_pos hzero]

/-- A backoff of 0 in a foreign frame: the attempt is due, and a busy wait begins (R98). -/
theorem beginBackoff_holding_foreign (hforeign : foreignNow (ctl q s)) :
    beginBackoff q (modCtl q (holding a) s)
      = modCtl q (fun c => { c with active := some { a with phase := .due }, busySince := some s.timebase }) s := by
  have hframe : inForeignFrame (holding a (ctl q s)).state = true := (inForeignFrame_iff _).2 hforeign
  rw [beginBackoff_holding_zero a hback, attemptDue, ctl_modCtl_same, if_pos hframe, modActive, modCtl_modCtl,
    beginBusyWait, modCtl_modCtl]
  exact modCtl_congr rfl

/-- A backoff of 0 outside a foreign frame: the next start is driven in the same event (log entry 11). -/
theorem beginBackoff_holding_started (hforeign : ¬ foreignNow (ctl q s)) (hstarted : a.started = true) :
    beginBackoff q (modCtl q (holding a) s) = started q (modCtl q (holding a) s) := by
  have hframe : ¬ inForeignFrame (holding a (ctl q s)).state = true := mt (inForeignFrame_iff _).1 hforeign
  rw [beginBackoff_holding_zero a hback, attemptDue, ctl_modCtl_same, if_neg hframe]
  exact beginDue_started (by rw [ctl_modCtl_same]; rfl) hstarted

end

/-- The start of the frame in use is driven whatever phase the job was held in. -/
theorem started_holding (p : JobPhase) :
    started q (modCtl q (holding { a with phase := p }) s) = started q (modCtl q (holding a) s) := by
  rw [started, modCtl_modCtl, started, modCtl_modCtl]
  exact modCtl_congr rfl

end

/-! ### The retry decision -/

section
variable {q : SegId} {a : ActiveJob} {s : State} (ha : (ctl q s).active = some a) (o : FrameOutcome)
include ha

theorem retryOrComplete_complete
    (h : (ctl q s).state = .stopping ∨ ¬ a.job.attempts.toNat < (ctl q s).cfg.retryLimit.toNat) :
    retryOrComplete q o s = completes q o s := by
  have hdecision : retryDecision (ctl q s) a = .complete := by
    unfold retryDecision
    split
    · rfl
    · next hstate => exact if_neg (h.resolve_left hstate)
  simp only [retryOrComplete, ha, hdecision]
  rfl

variable (hstate : (ctl q s).state ≠ .stopping) (h : a.job.attempts.toNat < (ctl q s).cfg.retryLimit.toNat)
include hstate h

theorem retryOrComplete_cancel (habort : a.abortPending = true) :
    retryOrComplete q o s = afterCompletion q (completeJob q (noFrame .cancelled) (usedBy a) s) := by
  have hdecision : retryDecision (ctl q s) a = .cancel := by rw [retryDecision, if_neg hstate, if_pos h, habort]; rfl
  simp only [retryOrComplete, ha, hdecision]
  rfl

/-- The attempt is counted and the backoff begins. -/
theorem retryOrComplete_retry (habort : a.abortPending = false) :
    retryOrComplete q o s = beginBackoff q (modCtl q (holding (attemptCounted o a)) s) := by
  have hdecision : retryDecision (ctl q s) a = .retry := by rw [retryDecision, if_neg hstate, if_pos h, habort]; rfl
  simp only [retryOrComplete, ha, hdecision]
  rw [countAttempt, modActive_of_active _ ha]
  rfl

end

/-- Settles O33: the decision by the attempts field and a pending abort, then the backoff of a retry. -/
theorem retriesFollowTheAttemptsField : Obligations.RetriesFollowTheAttemptsField := by
  intro q o a s ha
  dsimp only
  refine ⟨retryOrComplete_complete ha o, retryOrComplete_cancel ha o, fun hstate hbelow habort => ?_⟩
  rw [retryOrComplete_retry ha o hstate hbelow habort]
  refine ⟨fun hback hforeign => ?_, fun hback hforeign => ?_, fun hback hforeign => ?_, fun hback hforeign hstarted => ?_⟩
  · exact beginBackoff_holding_of_foreign _ hback hforeign
  · exact beginBackoff_holding_of_own _ hback hforeign
  · exact beginBackoff_holding_foreign _ hback hforeign
  · exact (beginBackoff_holding_started (attemptCounted o a) hback hforeign hstarted).trans
      (started_holding (attemptCounted o a) .running).symm

end Sys2Proof.Proofs
end

section
/-! The line check before a start, the recovery of a segment and its events, in the words of the rules (R96, R97, R109, R110). -/

namespace Sys2Proof.Proofs

open Sys2Proof.Machine Sys2Proof.Safety Sys2Proof.Spec

/-! ## The line check (R97) -/

section
variable (q : SegId) (sense : RecoverySense) {lines : Lines} (s : State)

theorem checkLines_of_high (hsda : lines.sda = true) (hscl : lines.scl = true) : checkLines q lines sense s = started q s := by
  rw [checkLines, hsda, hscl]
  exact beginFrame_eq_started q s

/-- The start waits for the clock line. -/
theorem checkLines_of_clock_low (hsda : lines.sda = true) (hscl : lines.scl = false) :
    checkLines q lines sense s = modCtl q (fun c => { c with state := .active, own := .startWait s.timebase }) s := by
  rw [checkLines, hsda, hscl]
  rfl

/-- The data line low is LINE_STUCK, with a recovery below the threshold. -/
theorem checkLines_of_data_low (hsda : lines.sda = false) :
    checkLines q lines sense s
      = takeResult q (noFrame .lineStuck)
          (fun t => beginRecovery q sense
            (modCtl q (fun c =>
              { c with active := c.active.map fun a => { a with phase := .recovering, last := some (noFrame .lineStuck) } }) t))
          (modCtl q (fun c => { c with own := .quiet }) s) := by
  rw [checkLines, hsda]
  rfl

end

/-- The conditions of R96 and R97 on a controller whose job is known. -/
theorem mayBegin_iff {c : Controller} {a : ActiveJob} (ha : c.active = some a) :
    mayBegin c = true
      ↔ (c.state = .idle ∨ c.state = .backoff ∨ c.state = .settle) ∧ c.bus = .free ∧ c.own = .quiet ∧ a.started = true
          ∧ a.phase = .due := by
  simp [mayBegin, ha, and_assoc, or_assoc]

section
variable {q : SegId} {s : State}

theorem exec_attemptBegin (lines : Lines) (sense : RecoverySense) (hs : s.inReset = false) :
    exec (.attemptBegin q lines sense) s
      = .next (if mayBegin (ctl q s) = true then checkLines q lines sense s else s) :=
  congrArg Host.Outcome.next (outOfReset_released hs)

/-- The clock line rises while the start waits for it: the line check again, within the hold limit. -/
theorem exec_clockLineSensedHigh {since : Word} (sda : Bool) (sense : RecoverySense) (hs : s.inReset = false)
    (hown : (ctl q s).own = .startWait since) (hstate : (ctl q s).state = .active) :
    exec (.clockLineSensedHigh q sda sense) s
      = .next (if passed since (ctl q s).cfg.holdLimit.toNat s then s
          else checkLines q { scl := true, sda := sda } sense s) := by
  refine congrArg Host.Outcome.next ((outOfReset_released hs).trans ?_)
  simp only [clockLineSensedHighEvent, hown, hstate, true_and, ← elapsed_iff]
  cases elapsed since (ctl q s).cfg.holdLimit.toNat s <;> rfl

end

/-- Settles O36: whether the attempt may begin, then the line check by the two lines. -/
theorem attemptsBeginWithTheLineCheck : Obligations.AttemptsBeginWithTheLineCheck := by
  intro q lines sense a s hs ha
  dsimp only
  rw [exec_attemptBegin lines sense hs, ← mayBegin_iff ha]
  refine ⟨fun hready hsda hscl => ?_, fun hready hsda hscl => ?_, fun hready hsda => ?_, fun hready => ?_,
    fun since hown hstate => ?_⟩
  · rw [if_pos hready, checkLines_of_high q sense s hsda hscl]
  · rw [if_pos hready, checkLines_of_clock_low q sense s hsda hscl]
  · rw [if_pos hready, checkLines_of_data_low q sense s hsda]
  · rw [if_neg hready]
  · rw [exec_clockLineSensedHigh lines.sda sense hs hown hstate]
    refine ⟨fun hwithin hsda => ?_, fun hwithin hsda => ?_, fun hpassed => ?_⟩
    · rw [if_neg hwithin, checkLines_of_high (lines := { scl := true, sda := lines.sda }) q sense s hsda rfl]
    · rw [if_neg hwithin, checkLines_of_data_low (lines := { scl := true, sda := lines.sda }) q sense s hsda]
    · rw [if_pos hpassed]

/-! ## Recovery (R109, R110) -/

section
variable {q : SegId} {n : Nat} {after : Lines} {s : State}

theorem recoverySuccess_eq_recovered (q : SegId) (s : State) : recoverySuccess q s = recovered q s := by
  unfold recoverySuccess recovered
  dsimp only
  rw [ctl_modCtl_same]
  rfl

theorem pulseOrHold_eq (q : SegId) (n : Nat) (s : State) :
    (if n < Config.recoveryPulses then recoverAt q .pulsing n s else recoverAt q (.lineClear s.timebase) n s)
      = pulseOrHold q n s :=
  (apply_ite (fun p => recoveringAt q p n s) _ _ _).symm

theorem recoveryStop_of_high (final : Bool) (hscl : after.scl = true) (hsda : after.sda = true) :
    recoveryStop q n final after s = recovered q s := by
  rw [recoveryStop, hscl, hsda]
  exact recoverySuccess_eq_recovered q s

theorem recoveryStop_of_data_low (hsda : after.sda = false) : recoveryStop q n false after s = pulseOrHold q n s := by
  rw [recoveryStop, hsda, Bool.and_false]
  exact pulseOrHold_eq q n s

/-- The clock line low after the stop is waited for (log entry 12). -/
theorem recoveryStop_of_clock_low (hscl : after.scl = false) (hsda : after.sda = true) :
    recoveryStop q n false after s = recoveringAt q (.checkWait s.timebase) n s := by
  rw [recoveryStop, hscl, hsda]
  rfl

theorem recoveryStop_final_of_low (h : after.scl = false ∨ after.sda = false) :
    recoveryStop q n true after s = faulted q s := by
  have hlow : (after.scl && after.sda) = false := Bool.and_eq_false_iff.2 h
  rw [recoveryStop, hlow]
  exact segmentFault_eq_faulted q s

end

/-- Settles O48: the check by the data line, the stop by the two lines after it. -/
theorem recoveryChecksAndStops : Obligations.RecoveryChecksAndStops := by
  intro q n sda sense after s
  dsimp only
  refine ⟨fun hscl => ?_, fun hscl => ?_, fun hsda => ?_, fun hsda => ?_, recoveryStop_of_high, recoveryStop_of_data_low,
    recoveryStop_of_clock_low, recoveryStop_final_of_low⟩
  · rw [beginRecovery, if_pos hscl]
  · rw [beginRecovery, hscl]
    rfl
  · rw [recoveryCheck, if_pos hsda]
  · rw [recoveryCheck, hsda]
    exact pulseOrHold_eq q n s

/-! ## The events of a recovery (R109) -/

section
variable {q : SegId} {n : Nat} {since : Word} {s : State} (hs : s.inReset = false)
include hs

theorem exec_releasePulse_pulsing (lines after : Lines)
    (h : (ctl q s).recovery = some { phase := .pulsing, pulses := n }) :
    exec (.releasePulse q lines after) s
      = .next (if lines.scl = true then recoveryCheck q (n + 1) lines.sda after s
          else recoveringAt q (.pulseWait s.timebase) (n + 1) s) := by
  refine congrArg Host.Outcome.next ((outOfReset_released hs).trans ?_)
  simp only [releasePulseEvent, h]
  rfl

theorem exec_lineClearHoldEnd_lineClear (lines after : Lines)
    (h : (ctl q s).recovery = some { phase := .lineClear since, pulses := n }) :
    exec (.lineClearHoldEnd q lines after) s
      = .next (if passed since 40 s then
            if lines.scl = true ∧ lines.sda = true then recoveryStop q n true after s
            else recoveringAt q (.clearWait s.timebase) n s
          else s) := by
  refine congrArg Host.Outcome.next ((outOfReset_released hs).trans ?_)
  simp only [lineClearHoldEndEvent, h, elapsed_iff, Bool.and_eq_true]
  rfl

/-- A recovery that waits for a line is faulted by the timeout once the hold limit has passed. -/
theorem exec_recoveryHoldTimeout_waiting (h : (ctl q s).recovery.bind recoveryWait = some since) :
    exec (.recoveryHoldTimeout q) s
      = .next (if passed since (ctl q s).cfg.holdLimit.toNat s then faulted q s else s) := by
  refine congrArg Host.Outcome.next ((outOfReset_released hs).trans ?_)
  simp only [recoveryHoldTimeoutEvent, h, elapsed_iff, segmentFault_eq_faulted]

/-- The clock line awaited before a check rises. -/
theorem exec_recoveryLinesSensedHigh_check (sda : Bool) (after : Lines)
    (h : (ctl q s).recovery = some { phase := .checkWait since, pulses := n }
      ∨ (ctl q s).recovery = some { phase := .pulseWait since, pulses := n }) :
    exec (.recoveryLinesSensedHigh q sda after) s
      = .next (if passed since (ctl q s).cfg.holdLimit.toNat s then s else recoveryCheck q n sda after s) := by
  refine congrArg Host.Outcome.next ((outOfReset_released hs).trans ?_)
  rcases h with h | h <;> simp only [recoveryLinesSensedHighEvent, h, elapsed_iff]

/-- The clock line awaited after the line-clear hold rises. -/
theorem exec_recoveryLinesSensedHigh_clear (sda : Bool) (after : Lines)
    (h : (ctl q s).recovery = some { phase := .clearWait since, pulses := n }) :
    exec (.recoveryLinesSensedHigh q sda after) s
      = .next (if passed since (ctl q s).cfg.holdLimit.toNat s ∨ sda = false then s else recoveryStop q n true after s) := by
  refine congrArg Host.Outcome.next ((outOfReset_released hs).trans ?_)
  simp only [recoveryLinesSensedHighEvent, h, elapsed_iff]

end

/-- Settles O49: the event of each phase of the recovery, in the order of R109's steps. -/
theorem recoveryEventsFollowTheSteps : Obligations.RecoveryEventsFollowTheSteps := by
  intro q n lines after sda since s hs
  dsimp only
  refine ⟨fun h => ?pulse, fun h hpassed => ?holdEnd, fun h hwithin => ?hold, fun h => ?waiting, fun h hwithin => ?check,
    fun h hwithin => ?clear⟩
  case pulse =>
    rw [exec_releasePulse_pulsing hs lines after h]
    exact ⟨fun hscl => by rw [if_pos hscl], fun hscl => by rw [hscl]; rfl⟩
  case holdEnd =>
    rw [exec_lineClearHoldEnd_lineClear hs lines after h, if_pos hpassed]
    exact ⟨fun hhigh => by rw [if_pos hhigh], fun hlow => by rw [if_neg hlow]⟩
  case hold => rw [exec_lineClearHoldEnd_lineClear hs lines after h, if_neg hwithin]
  case waiting =>
    have hwait : (ctl q s).recovery.bind recoveryWait = some since := by rcases h with h | h | h <;> rw [h] <;> rfl
    rw [exec_recoveryHoldTimeout_waiting hs hwait]
    refine ⟨fun hpassed => by rw [if_pos hpassed], fun hwithin => by rw [if_neg hwithin], fun hpassed => ?_⟩
    rcases h with h | h | h
    · rw [exec_recoveryLinesSensedHigh_check hs sda after (.inl h), if_pos hpassed]
    · rw [exec_recoveryLinesSensedHigh_check hs sda after (.inr h), if_pos hpassed]
    · rw [exec_recoveryLinesSensedHigh_clear hs sda after h, if_pos (.inl hpassed)]
  case check => rw [exec_recoveryLinesSensedHigh_check hs sda after h, if_neg hwithin]
  case clear =>
    rw [exec_recoveryLinesSensedHigh_clear hs sda after h]
    cases sda with
    | true => rw [if_neg (not_or.2 ⟨hwithin, Bool.noConfusion⟩), if_pos rfl]
    | false => rw [if_pos (.inr rfl)]; rfl

end Sys2Proof.Proofs
end

section
/-! The commands SEGMENT_ONLINE, SEGMENT_RESTORE and SEGMENT_OFFLINE, in the words of the rules (R111 to R114 and Table 6.5). -/

namespace Sys2Proof.Proofs

open Sys2Proof.Machine Sys2Proof.Safety Sys2Proof.Spec

/-! ## SEGMENT_ONLINE and SEGMENT_RESTORE (R111, R114) -/

section
variable {q : SegId} {tag : Half} {s t : State} {a : Answer} (hs : Ready s)
include hs

theorem exec_segmentOnline {sense : SegmentSense}
    (h : segmentOnline sense q (issued 0x20#8 (indexByte q) tag s) = (t, a)) :
    exec (.segmentOnline (indexByte q) tag sense) s = .next (answerCommand 0x20#8 tag a t) := by
  refine congrArg Host.Outcome.next ((portCommand_indexByte (by decide) 0x20#8 q tag (segmentOnline sense) hs).trans ?_)
  rw [h]

theorem exec_segmentOffline (h : segmentOffline q (issued 0x21#8 (indexByte q) tag s) = (t, a)) :
    exec (.segmentOffline (indexByte q) tag) s = .next (answerCommand 0x21#8 tag a t) := by
  refine congrArg Host.Outcome.next ((portCommand_indexByte (by decide) 0x21#8 q tag segmentOffline hs).trans ?_)
  rw [h]

theorem exec_segmentRestore {sense : RecoverySense}
    (h : segmentRestore sense q (issued 0x22#8 (indexByte q) tag s) = (t, a)) :
    exec (.segmentRestore (indexByte q) tag sense) s = .next (answerCommand 0x22#8 tag a t) := by
  refine congrArg Host.Outcome.next ((portCommand_indexByte (by decide) 0x22#8 q tag (segmentRestore sense) hs).trans ?_)
  rw [h]

end

theorem segConfigValid_eq_false_iff (c : SegConfig) :
    segConfigValid c = false ↔ c.speed = 3#2 ∨ c.holdLimit = 0#8 ∨ c.busyLimit = 0#8 ∨ c.threshold = 0#4 := by
  simp only [segConfigValid, Bool.and_eq_false_iff, bne_eq_false_iff_eq, or_assoc]

section
variable {q : SegId} {s : State}

theorem segmentOnline_of_not_offline (sense : SegmentSense) (h : (ctl q s).state ≠ .offline) :
    segmentOnline sense q s = (s, .refused .badState) := by
  rw [segmentOnline, if_pos h]

section
variable {sense : SegmentSense} (h : (ctl q s).state = .offline)
include h

theorem segmentOnline_of_bad_config (hbad : segConfigValid (ctl q s).cfg = false) :
    segmentOnline sense q s = (s, .refused .badConfig) := by
  rw [segmentOnline, if_neg (not_not_intro h), if_pos hbad]

variable (hvalid : segConfigValid (ctl q s).cfg ≠ false)
include hvalid

theorem segmentOnline_of_high (hhigh : sense.lines.scl = true ∧ sense.lines.sda = true) :
    segmentOnline sense q s = (modCtl q (fun c => { c with state := .idle, bus := .free }) s, .accepted) := by
  rw [segmentOnline, if_neg (not_not_intro h), if_neg hvalid, if_pos (Bool.and_eq_true_iff.2 hhigh)]

theorem segmentOnline_of_low (hlow : ¬(sense.lines.scl = true ∧ sense.lines.sda = true)) :
    segmentOnline sense q s = (beginRecovery q sense.recovery s, .accepted) := by
  rw [segmentOnline, if_neg (not_not_intro h), if_neg hvalid, if_neg (mt Bool.and_eq_true_iff.1 hlow)]

end

theorem segmentRestore_of_not_quarantined (sense : RecoverySense) (h : (ctl q s).state ≠ .quarantined) :
    segmentRestore sense q s = (s, .refused .badState) := by
  rw [segmentRestore, if_pos h]

theorem segmentRestore_of_quarantined (sense : RecoverySense) (h : (ctl q s).state = .quarantined) :
    segmentRestore sense q s = (beginRecovery q sense (modCtl q (fun c => { c with streak := 0#4 }) s), .accepted) := by
  rw [segmentRestore, if_neg (not_not_intro h)]

end

/-- Settles O50: SEGMENT_ONLINE by the state, the configuration and the lines; SEGMENT_RESTORE by the state. -/
theorem segmentsComeOnline : Obligations.SegmentsComeOnline := by
  intro q tag sense r s hs
  dsimp only
  rw [← segConfigValid_eq_false_iff]
  refine ⟨fun h => ?_, fun h hbad => ?_, fun h hvalid hhigh => ?_, fun h hvalid hlow => ?_, fun h => ?_, fun h => ?_⟩
  · rw [exec_segmentOnline hs (segmentOnline_of_not_offline sense h)]
    rfl
  · rw [exec_segmentOnline hs (segmentOnline_of_bad_config h hbad)]
    rfl
  · rw [exec_segmentOnline hs (segmentOnline_of_high h hvalid hhigh)]
    rfl
  · rw [exec_segmentOnline hs (segmentOnline_of_low h hvalid hlow)]
    rfl
  · rw [exec_segmentRestore hs (segmentRestore_of_not_quarantined r h)]
    rfl
  · rw [exec_segmentRestore hs (segmentRestore_of_quarantined r h)]
    rfl

/-! ## SEGMENT_OFFLINE (R112, R113) -/

/-- STOPPING as the command enters it: the queue flushed and the reception cut, the part's own wire left as it is. -/
def enteredStopping (q : SegId) (s : State) : State :=
  modCtl q (fun c => { c with state := .stopping, busySince := none, recovery := none, addressExpected := false })
    (cutReception q (flushed q s))

/-- STOPPING as the command enters it with nothing of the part on the wire: a start that was waiting is given up. -/
def enteredStoppingQuiet (q : SegId) (s : State) : State :=
  modCtl q (fun c => { c with own := .quiet }) (enteredStopping q s)

theorem ownOnWire_iff (w : OwnWire) : ownOnWire w = true ↔ (∃ t, w = .frame t) ∨ ∃ t, w = .stopAttempt t := by
  cases w <;> simp [ownOnWire]

section
variable {q : SegId} {s : State}

theorem ctl_enteredStopping (q : SegId) (s : State) :
    (ctl q (enteredStopping q s)).active = (ctl q s).active ∧ (ctl q (enteredStopping q s)).own = (ctl q s).own := by
  rw [enteredStopping, ctl_modCtl_same]
  exact ⟨rfl, rfl⟩

theorem ctl_enteredStoppingQuiet (q : SegId) (s : State) :
    (ctl q (enteredStoppingQuiet q s)).active = (ctl q s).active ∧ (ctl q (enteredStoppingQuiet q s)).own = .quiet := by
  rw [enteredStoppingQuiet, ctl_modCtl_same]
  exact ⟨(ctl_enteredStopping q s).1, rfl⟩

theorem modCtl_stoppingCtl_of_wire (h : ownOnWire (ctl q s).own = true) :
    modCtl q stoppingCtl (cutReception q (flush q s)) = enteredStopping q s := by
  rw [flushReportsEveryJob]
  refine modCtl_congr ?_
  have hctl : ctl q (cutReception q (flushed q s)) = ctl q s := rfl
  rw [hctl, stoppingCtl, if_pos h]

theorem modCtl_stoppingCtl_of_quiet (h : ¬ ownOnWire (ctl q s).own = true) :
    modCtl q stoppingCtl (cutReception q (flush q s)) = enteredStoppingQuiet q s := by
  rw [flushReportsEveryJob, enteredStoppingQuiet, enteredStopping, modCtl_modCtl]
  refine modCtl_congr ?_
  have hctl : ctl q (cutReception q (flushed q s)) = ctl q s := rfl
  rw [hctl, stoppingCtl, if_neg h]

/-! ### The end of the active job (Table 6.5) -/

theorem ctl_finished (q : SegId) (a : ActiveJob) (o : FrameOutcome) (used : BitVec 4) (s : State) :
    ctl q (finished q a o used s) = { ctl q s with active := none, earlyEnd := none } :=
  getAt_putAt_same _ _ _

section
variable {a : ActiveJob} (ha : (ctl q s).active = some a)
include ha

theorem completeStopped_of_result {o : FrameOutcome} (hlast : a.last = some o) (hresult : o.result ≠ .ok) :
    completeStopped q a s = finished q a o (usedBy a) s := by
  simp only [completeStopped, hlast, if_neg hresult]
  exact completeJob_eq_finished o _ ha

/-- A job that has made no attempt, or whose write frame ended OK, is FLUSHED. -/
theorem completeStopped_of_none_failed (h : ∀ o, a.last = some o → o.result = .ok) :
    completeStopped q a s = finished q a (noFrame .flushed) 0#4 s := by
  unfold completeStopped
  split
  · next o hlast =>
    rw [if_pos (h o hlast)]
    exact completeJob_eq_finished _ _ ha
  · exact completeJob_eq_finished _ _ ha

theorem stopActiveJob_running (h : a.phase = .running) : stopActiveJob q s = s := by
  simp only [stopActiveJob, ha, h]

theorem stopActiveJob_between (h : a.phase = .due ∨ a.phase = .backoffPending ∨ ∃ t, a.phase = .backoff t) :
    stopActiveJob q s = completeStopped q a s := by
  rcases h with h | h | ⟨t, h⟩ <;> simp only [stopActiveJob, ha, h]

theorem stopActiveJob_settle (h : ∃ t, a.phase = .settle t) :
    stopActiveJob q s = finished q a (noFrame .flushed) 0#4 s := by
  obtain ⟨t, h⟩ := h
  simp only [stopActiveJob, ha, h]
  exact completeJob_eq_finished _ _ ha

theorem stopActiveJob_recovering (h : a.phase = .recovering) :
    stopActiveJob q s = finished q a (noFrame .lineStuck) (usedBy a) s := by
  simp only [stopActiveJob, ha, h]
  exact completeJob_eq_finished _ _ ha

theorem endStoppingIfQuiet_of_active : endStoppingIfQuiet q s = s := by
  rw [endStoppingIfQuiet, ha, if_neg (fun h => Option.some_ne_none a h.1)]

end

theorem stopActiveJob_of_none (ha : (ctl q s).active = none) : stopActiveJob q s = s := by
  rw [stopActiveJob, ha]

theorem endStoppingIfQuiet_eq_stopped (ha : (ctl q s).active = none) (hown : (ctl q s).own = .quiet) :
    endStoppingIfQuiet q s = stopped q s := by
  rw [endStoppingIfQuiet, if_pos ⟨ha, by rw [hown]; rfl⟩]
  exact endStopping_eq_stopped q s

/-! ### The command by the controller's state -/

theorem segmentOffline_of_off (h : (ctl q s).state = .offline ∨ (ctl q s).state = .stopping) :
    segmentOffline q s = (s, .refused .badState) := by
  rcases h with h | h <;> rw [segmentOffline, h]

theorem segmentOffline_of_quarantined (h : (ctl q s).state = .quarantined) :
    segmentOffline q s = (noted 0x400#13 (modCtl q offline s), .accepted) := by
  rw [segmentOffline, h]
  rfl

theorem segmentOffline_of_online
    (h : (ctl q s).state ≠ .offline ∧ (ctl q s).state ≠ .stopping ∧ (ctl q s).state ≠ .quarantined) :
    segmentOffline q s
      = (endStoppingIfQuiet q (stopActiveJob q (modCtl q stoppingCtl (cutReception q (flush q s)))), .accepted) := by
  obtain ⟨hoffline, hstopping, hquarantined⟩ := h
  unfold segmentOffline
  split
  · next hstate => exact absurd hstate hoffline
  · next hstate => exact absurd hstate hstopping
  · next hstate => exact absurd hstate hquarantined
  all_goals rfl

section
variable (h : (ctl q s).state ≠ .offline ∧ (ctl q s).state ≠ .stopping ∧ (ctl q s).state ≠ .quarantined)
include h

/-- A frame of the part, or its stop attempt, runs on. -/
theorem segmentOffline_on_wire {a : ActiveJob} (hwire : ownOnWire (ctl q s).own = true) (ha : (ctl q s).active = some a)
    (hphase : a.phase = .running) : segmentOffline q s = (enteredStopping q s, .accepted) := by
  have hjob : (ctl q (enteredStopping q s)).active = some a := (ctl_enteredStopping q s).1.trans ha
  rw [segmentOffline_of_online h, modCtl_stoppingCtl_of_wire hwire, stopActiveJob_running hjob hphase,
    endStoppingIfQuiet_of_active hjob]

variable (hquiet : ¬ ownOnWire (ctl q s).own = true)
include hquiet

theorem segmentOffline_without_job (ha : (ctl q s).active = none) :
    segmentOffline q s = (stopped q (enteredStoppingQuiet q s), .accepted) := by
  obtain ⟨hactive, hown⟩ := ctl_enteredStoppingQuiet q s
  rw [segmentOffline_of_online h, modCtl_stoppingCtl_of_quiet hquiet, stopActiveJob_of_none (hactive.trans ha),
    endStoppingIfQuiet_eq_stopped (hactive.trans ha) hown]

/-- The active job ends with the command, and STOPPING with it. -/
theorem segmentOffline_job_ends {a : ActiveJob} {o : FrameOutcome} {used : BitVec 4}
    (hends : stopActiveJob q (enteredStoppingQuiet q s) = finished q a o used (enteredStoppingQuiet q s)) :
    segmentOffline q s = (stopped q (finished q a o used (enteredStoppingQuiet q s)), .accepted) := by
  have hctl := ctl_finished q a o used (enteredStoppingQuiet q s)
  have hown : (ctl q (finished q a o used (enteredStoppingQuiet q s))).own = .quiet := by
    rw [hctl]
    exact (ctl_enteredStoppingQuiet q s).2
  rw [segmentOffline_of_online h, modCtl_stoppingCtl_of_quiet hquiet, hends,
    endStoppingIfQuiet_eq_stopped (by rw [hctl]) hown]

end

theorem exec_segmentOffline_job_ends {tag : Half} {a : ActiveJob} {o : FrameOutcome} {used : BitVec 4} (hs : Ready s)
    (h : (ctl q s).state ≠ .offline ∧ (ctl q s).state ≠ .stopping ∧ (ctl q s).state ≠ .quarantined)
    (hquiet : ¬ ownOnWire (ctl q s).own = true)
    (hends : stopActiveJob q (enteredStoppingQuiet q (issued 0x21#8 (indexByte q) tag s))
      = finished q a o used (enteredStoppingQuiet q (issued 0x21#8 (indexByte q) tag s))) :
    exec (.segmentOffline (indexByte q) tag) s
      = .next (answered 0x21#8 tag .accepted .none
          (stopped q (finished q a o used (enteredStoppingQuiet q (issued 0x21#8 (indexByte q) tag s))))) :=
  exec_segmentOffline hs (segmentOffline_job_ends (s := issued 0x21#8 (indexByte q) tag s) h hquiet hends)

end

/-- Settles O51: the command by the controller's state, then by what is on the wire and where the active job stands. -/
theorem segmentOfflineStopsTheSegment : Obligations.SegmentOfflineStopsTheSegment := by
  intro q tag s hs
  dsimp only
  rw [← ownOnWire_iff]
  refine ⟨fun h => ?_, fun h => ?_, fun h hquiet ha => ?_, fun a h hwire ha hphase => ?_, fun a h hquiet ha => ?_⟩
  · exact exec_segmentOffline hs (segmentOffline_of_off h)
  · exact exec_segmentOffline hs (segmentOffline_of_quarantined h)
  · exact exec_segmentOffline hs (segmentOffline_without_job h hquiet ha)
  · exact exec_segmentOffline hs (segmentOffline_on_wire h hwire ha hphase)
  · have hjob : (ctl q (enteredStoppingQuiet q (issued 0x21#8 (indexByte q) tag s))).active = some a :=
      (ctl_enteredStoppingQuiet q _).1.trans ha
    refine ⟨fun o hphase hlast hresult => ?_, fun hphase hnone => ?_, fun hphase => ?_, fun hphase => ?_⟩
    · exact exec_segmentOffline_job_ends hs h hquiet
        ((stopActiveJob_between hjob hphase).trans (completeStopped_of_result hjob hlast hresult))
    · exact exec_segmentOffline_job_ends hs h hquiet
        ((stopActiveJob_between hjob hphase).trans (completeStopped_of_none_failed hjob hnone))
    · exact exec_segmentOffline_job_ends hs h hquiet (stopActiveJob_settle hjob hphase)
    · exact exec_segmentOffline_job_ends hs h hquiet (stopActiveJob_recovering hjob hphase)

end Sys2Proof.Proofs
end

section
/-! The Direct Slot Unit beside SLOT_CANCEL and SLOT_RELEASE: stored writes of a slot's data area (R120, R156), SLOT_SUBMIT
(R121, R122), and the completion of a slot's job (R107, R118, R124). -/

namespace Sys2Proof.Proofs

open Sys2Proof.Machine Sys2Proof.Safety Sys2Proof.Spec

/-! ## Writes of a slot's data area (R120, R156) -/

/-- A change that keeps the slot as it is keeps the state. -/
theorem modSlot_eq_self {k : SlotId} {f : Slot → Slot} {s : State} (h : f (slot k s) = slot k s) : modSlot k f s = s := by
  unfold modSlot
  rw [h]
  simp [slot]

/-- With no lane enabled no byte is replaced (R156). -/
theorem storeLanes_no_lane {n : Nat} (v : Vector Byte n) (w : Nat) (data : Word) : storeLanes v w 0#4 data = v :=
  getAt_ext fun i => by simp [getAt_storeLanes]

/-- The rows of Table 10.1 that a write to a slot's data area can meet: RESETTING, then LOCKED. -/
theorem writeError_slotData (k : SlotId) (w : Fin 16) (be : BitVec 4) (s : State) :
    writeError (some (.slotData k w)) be s
      = if s.resetting = true then some .resetting else if (slot k s).state ≠ .free then some .locked else none := by
  simp [writeError, Loc.kind, takenWhileResetting, locked, readModeStaging]

section
variable {k : SlotId} {w : Fin 16} {a : Addr} {s : State} (be : BitVec 4) (data : Word) (hs : s.inReset = false)
  (ha : locate a = some (.slotData k w))
include hs ha

theorem exec_slotData_stored (hr : s.resetting = false) (hfree : (slot k s).state = .free) :
    exec (.hostWrite a be data) s
      = .next (modSlot k (fun x => { x with data := storeLanes (slot k s).data w.val be data }) s) := by
  refine congrArg Host.Outcome.next ?_
  rw [hostWrite, ha, writeWord_stored a data hs (by rw [writeError_slotData, hr, hfree]; rfl)]
  rfl

theorem exec_slotData_no_lane (hr : s.resetting = false) (hfree : (slot k s).state = .free) :
    exec (.hostWrite a 0#4 data) s = .next s := by
  rw [exec_slotData_stored 0#4 data hs ha hr hfree, storeLanes_no_lane, modSlot_eq_self rfl]

theorem exec_slotData_locked (hr : s.resetting = false) (hbusy : (slot k s).state ≠ .free) :
    exec (.hostWrite a be data) s = .next (errorTaken a true .locked s) := by
  refine congrArg Host.Outcome.next ?_
  rw [hostWrite, ha, writeWord_error data hs (by rw [writeError_slotData, hr, if_pos hbusy]; rfl)]

theorem exec_slotData_resetting (hr : s.resetting = true) :
    exec (.hostWrite a be data) s = .next (errorTaken a true .resetting s) := by
  refine congrArg Host.Outcome.next ?_
  rw [hostWrite, ha, writeWord_error data hs (by rw [writeError_slotData, if_pos hr])]

end

/-- A staging write is stored under each mode code but READ (R48; log entry 28). -/
theorem exec_stagingWrite_stored (e : EntryId) (v : Fin 8) (be : BitVec 4) (data : Word) {s : State}
    (hs : s.inReset = false) (hr : s.resetting = false) (hmode : (entry e s).cfg.mode ≠ 0#2) :
    exec (.stagingBufferWrite e v be data) s
      = .next (modEntry e (fun x => { x with staging := storeLanes (entry e s).staging v.val be data }) s) :=
  congrArg Host.Outcome.next (writeWord_stored _ data hs (by simp [writeError_staging, hr, hmode]))

/-- A staging write that a row of Table 10.1 drops, with whatever lanes (log entry 14). -/
theorem exec_stagingWrite_error (e : EntryId) (v : Fin 8) (be : BitVec 4) (data : Word) {s : State} {r : AccessReason}
    (hs : s.inReset = false) (hr : writeError (some (.staging e v)) be s = some r) :
    exec (.stagingBufferWrite e v be data) s
      = .next (errorTaken (BitVec.ofNat 14 (0x2000 + 32 * e.val + 4 * v.val)) true r s) :=
  congrArg Host.Outcome.next (writeWord_error data hs hr)

/-- Settles O8: the row of Table 10.1 decides, and the bytes of a FREE slot go in lane by lane. -/
theorem slotDataWritesAreStoredByLane : Obligations.SlotDataWritesAreStoredByLane := by
  intro k w a be data s hs ha
  refine ⟨fun hr hfree => ?_, fun hr hfree hbe => ?_, fun e v hr hmode => ?_, fun hr hbusy => ?_, fun e v hr hmode => ?_,
    fun hr => ⟨?_, fun e v => ?_⟩⟩
  · exact ⟨_, exec_slotData_stored be data hs ha hr hfree, getAt_storeLanes _ _ _ _⟩
  · rw [hbe]
    exact exec_slotData_no_lane data hs ha hr hfree
  · have hnotRead : (entry e s).cfg.mode ≠ 0#2 := by rw [hmode]; decide
    exact ⟨_, exec_stagingWrite_stored e v be data hs hr hnotRead, getAt_storeLanes _ _ _ _⟩
  · exact exec_slotData_locked 0#4 data hs ha hr hbusy
  · exact exec_stagingWrite_error e v 0#4 data hs (by simp [writeError_staging, hr, hmode])
  · exact exec_slotData_resetting 0#4 data hs ha hr
  · exact exec_stagingWrite_error e v 0#4 data hs (by simp [writeError_staging, hr])

/-! ## SLOT_SUBMIT (R121, R122) -/

/-- The descriptors that Table 7.3 refuses BAD_CONFIG: a kind code that names no kind, or a count outside the kind's range. -/
def BadDescriptor (x : Slot) : Prop :=
  4 ≤ x.kind.toNat ∨ (x.kind = 1#3 ∧ 32 < x.writeCount.toNat)
    ∨ (x.kind = 2#3 ∧ (x.readCount.toNat = 0 ∨ 32 < x.readCount.toNat))
    ∨ (x.kind = 3#3 ∧ (x.writeCount.toNat = 0 ∨ 32 < x.writeCount.toNat ∨ x.readCount.toNat = 0 ∨ 32 < x.readCount.toNat))

/-- A kind code names one of the four kinds, or none. -/
theorem kind_cases : ∀ c : BitVec 3, c = 0#3 ∨ c = 1#3 ∨ c = 2#3 ∨ c = 3#3 ∨ 4 ≤ c.toNat := by decide

theorem descriptorValid_of_no_kind {x : Slot} (h : 4 ≤ x.kind.toNat) : descriptorValid x = false := by
  unfold descriptorValid
  dsimp only
  split
  case h_5 => rfl
  all_goals omega

/-- The model's check of the descriptor refuses exactly these. -/
theorem descriptorValid_eq_false_iff (x : Slot) : descriptorValid x = false ↔ BadDescriptor x := by
  unfold BadDescriptor
  rcases kind_cases x.kind with h | h | h | h | h
  · simp [descriptorValid, h]
  · simp [descriptorValid, h]
  · simp only [descriptorValid, h, BitVec.toNat_ofNat, Nat.reducePow, Nat.reduceMod, Bool.and_eq_false_iff,
      decide_eq_false_iff_not, BitVec.reduceEq, Nat.reduceLeDiff, false_and, true_and, or_false, false_or]
    omega
  · simp only [descriptorValid, h, BitVec.toNat_ofNat, Nat.reducePow, Nat.reduceMod, Bool.and_eq_false_iff,
      decide_eq_false_iff_not, BitVec.reduceEq, Nat.reduceLeDiff, false_and, true_and, false_or]
    omega
  · exact iff_of_true (descriptorValid_of_no_kind h) (.inl h)

/-- The DIRECT job of a slot, as it is submitted (R122). -/
def directJob (k : SlotId) : Job := { ref := .direct k, cls := .urgent, tag := none, attempts := 0#3 }

/-- A slot whose job waits in its queue: SUBMITTED, its result fields cleared (R122). -/
def submittedSlot (x : Slot) : Slot :=
  { x with state := .submitted, result := .noneRecorded, acked := 0#6, received := 0#6, attemptsUsed := 0#4 }

section
variable {k : SlotId} {s : State}

theorem slotSubmit_badState (h : (slot k s).state ≠ .free) : slotSubmit k s = (s, .refused .badState) := by
  rw [slotSubmit, if_pos h]

theorem slotSubmit_badConfig (h : (slot k s).state = .free) (hbad : BadDescriptor (slot k s)) :
    slotSubmit k s = (s, .refused .badConfig) := by
  rw [slotSubmit, if_neg (not_not_intro h), if_pos ((descriptorValid_eq_false_iff _).2 hbad)]

/-- A FREE slot with a good descriptor requests admission of its job, and goes by the answer. -/
theorem slotSubmit_requests (h : (slot k s).state = .free) (hgood : ¬ BadDescriptor (slot k s)) :
    slotSubmit k s
      = if answerOf (slot k s).seg .urgent s = .admitted then
          (modSlot k submittedSlot (joined (slot k s).seg (directJob k) s), .accepted)
        else (s, admissionToAnswer (answerOf (slot k s).seg .urgent s)) := by
  rw [slotSubmit, if_neg (not_not_intro h), if_neg (mt (descriptorValid_eq_false_iff _).1 hgood), requestAdmission_eq]
  dsimp only
  cases answerOf (slot k s).seg .urgent s <;> rfl

theorem slotSubmit_admitted (h : (slot k s).state = .free) (hgood : ¬ BadDescriptor (slot k s))
    (hanswer : answerOf (slot k s).seg .urgent s = .admitted) :
    slotSubmit k s = (modSlot k submittedSlot (joined (slot k s).seg (directJob k) s), .accepted) := by
  rw [slotSubmit_requests h hgood, if_pos hanswer]

theorem slotSubmit_full (h : (slot k s).state = .free) (hgood : ¬ BadDescriptor (slot k s))
    (hanswer : answerOf (slot k s).seg .urgent s = .full) : slotSubmit k s = (s, .refused .queueFull) := by
  rw [slotSubmit_requests h hgood, hanswer]
  rfl

theorem slotSubmit_down (h : (slot k s).state = .free) (hgood : ¬ BadDescriptor (slot k s))
    (hanswer : answerOf (slot k s).seg .urgent s = .down) : slotSubmit k s = (s, .refused .segmentDown) := by
  rw [slotSubmit_requests h hgood, hanswer]
  rfl

end

/-- SLOT_SUBMIT is answered by the slot, which finds the command word kept (R146). -/
theorem exec_slotSubmit (k : SlotId) (tag : Half) {s t : State} {answer : Answer} (hs : Ready s)
    (h : slotSubmit k (issued 0x30#8 (indexByte k) tag s) = (t, answer)) :
    exec (.slotSubmit (indexByte k) tag) s = .next (answerCommand 0x30#8 tag answer t) := by
  have hport := portCommand_indexByte (by decide) 0x30#8 k tag slotSubmit hs
  rw [h] at hport
  exact congrArg Host.Outcome.next hport

/-- Settles O52: the rows of Table 7.3 in their order. -/
theorem slotSubmitFollowsTheTable : Obligations.SlotSubmitFollowsTheTable := by
  intro k tag s hs
  dsimp only
  refine ⟨fun h => ?_, fun h hbad => ?_, fun h hgood hfull => ?_, fun h hgood hdown => ?_, fun h hgood hadmitted => ?_⟩
  · exact exec_slotSubmit k tag hs (slotSubmit_badState h)
  · exact exec_slotSubmit k tag hs (slotSubmit_badConfig h hbad)
  · exact exec_slotSubmit k tag hs (slotSubmit_full h hgood hfull)
  · exact exec_slotSubmit k tag hs (slotSubmit_down h hgood hdown)
  · exact exec_slotSubmit k tag hs (slotSubmit_admitted h hgood hadmitted)

/-! ## The completion of a slot's job (R107, R118, R124) -/

/-- A slot's entry into DONE in the words of R124. -/
theorem finishSlot_eq (k : SlotId) (r : Result) (acked received : BitVec 6) (used : BitVec 4) (bytes : List Byte)
    (s : State) :
    finishSlot k r acked received used bytes s = noted 0x020#13 (modSlot k (endedSlot r acked received used bytes) s) :=
  rfl

theorem reportsToSlot_iff (k : SlotId) (r : Report) : reportsToSlot k r = true ↔ r.ref = .direct k := beq_iff_eq

theorem reportsToSlot_eq_false_iff (k : SlotId) (r : Report) : reportsToSlot k r = false ↔ r.ref ≠ .direct k := by
  rw [← Bool.not_eq_true, reportsToSlot_iff]

section
variable {k : SlotId} {before : List Report} {s : State} (hs : s.inReset = false)
  (hbefore : ∀ r ∈ before, r.ref ≠ .direct k)
include hs hbefore

/-- The first completion in flight to the slot is taken (R124). -/
theorem exec_slotCompletion_in_flight {c : Completion} {after : List Report} (hc : c.ref = .direct k)
    (hreports : s.reports = before ++ .completed c :: after) :
    exec (.slotCompletion k) s
      = .next (noted 0x020#13
          (modSlot k (endedSlot c.result c.acked c.received c.attemptsUsed c.bytes)
            { s with reports := before ++ after })) := by
  have hfirst : splitAtFirst (reportsToSlot k) s.reports = some (before, .completed c, after) := by
    rw [hreports]
    exact splitAtFirst_append_cons (fun r hr => (reportsToSlot_eq_false_iff k r).2 (hbefore r hr))
      ((reportsToSlot_iff k _).2 hc)
  refine congrArg Host.Outcome.next ?_
  rw [outOfReset_released hs, slotCompletionEvent, hfirst]
  exact finishSlot_eq ..

/-- With no report in flight to the slot nothing is taken (log entry 7). -/
theorem exec_slotCompletion_none (hreports : s.reports = before) : exec (.slotCompletion k) s = .next s := by
  have hnone : splitAtFirst (reportsToSlot k) s.reports = none := by
    rw [hreports]
    exact splitAtFirst_of_any_eq_false
      (List.any_eq_false.2 fun r hr => mt (reportsToSlot_iff k r).1 (hbefore r hr))
  refine congrArg Host.Outcome.next ?_
  rw [outOfReset_released hs, slotCompletionEvent, hnone]

end

/-- The controller completes a DIRECT job: the slot is DONE in the same event, and the controller lets go of the job (R107,
R118). -/
theorem completeJob_direct {q : SegId} {k : SlotId} {a : ActiveJob} {s : State} (o : FrameOutcome) (used : BitVec 4)
    (ha : (ctl q s).active = some a) (href : a.job.ref = .direct k) :
    completeJob q o used s
      = modCtl q (fun c => { c with active := none, earlyEnd := none })
          (noted 0x020#13 (modSlot k (endedSlot o.result o.acked o.received used (carried q a o s)) s)) := by
  rw [completeJob_eq_finished o used ha, finished, delivered, href]
  rfl

/-- Settles O54: the completion in flight, none in flight, and the completion in the controller's event. -/
theorem slotCompletionsFillTheSlot : Obligations.SlotCompletionsFillTheSlot := by
  intro k c before after s hs hbefore hc
  refine ⟨exec_slotCompletion_in_flight hs hbefore hc, exec_slotCompletion_none hs hbefore, fun q a o used ha href => ?_⟩
  dsimp only
  rw [completeJob_direct o used ha href]
  refine ⟨slot_modSlot_same k _ s, rfl, rfl, ?_, fun j hj => slot_modSlot_ne k _ s hj⟩
  rw [ctl_modCtl_same]

end Sys2Proof.Proofs
end

section
/-! The capture ring: its bound, its reservations and the order of its records (R135 to R137), which every step keeps. -/

namespace Sys2Proof.Proofs

open Sys2Proof.Machine Sys2Proof.Safety Sys2Proof.Spec

/-! ## What the ring keeps -/

/-- The invariant of the capture ring. -/
def RingOk (s : State) : Prop := RingBounded s ∧ RingInOrder s

/-- A step that keeps the invariant of the ring. -/
def KeepsRing (s t : State) : Prop := RingOk s → RingOk t

namespace KeepsRing
variable {s t u : State}

theorem refl (s : State) : KeepsRing s s := id

theorem trans (h : KeepsRing s t) (k : KeepsRing t u) : KeepsRing s u := k ∘ h

/-- The invariant looks at the records, the next sequence and the receptions. -/
theorem of_same (hring : t.ring = s.ring) (hsequence : t.nextSequence = s.nextSequence)
    (hreceptions : t.receptions = s.receptions) : KeepsRing s t := by
  rintro ⟨⟨hbound, hreserved⟩, horder⟩
  have hreception (q : SegId) : reception q t = reception q s := congrArg (getAt · q) hreceptions
  refine ⟨⟨?_, fun q r hr => hreserved q r ((hreception q).symm.trans hr)⟩, ?_⟩
  · rw [hring, reservedCount_congr hreceptions]
    exact hbound
  · rw [RingInOrder, hring, hsequence]
    exact horder

/-- An operation of the Mirror Table or the Refresh Scheduler leaves the Listen Unit. -/
theorem of_mirror (h : MirrorStep s t) : KeepsRing s t := by
  obtain ⟨_, _, _, _, _, rfl⟩ := h.frame
  exact of_same rfl rfl rfl

/-- An operation of a Segment Controller can cut a reception, whose reservation is then given up, and leaves the records. -/
theorem of_line {seg : SegId} (h : LineStep seg s t) : KeepsRing s t := fun ⟨hbounded, horder⟩ => by
  refine ⟨h.ring hbounded, ?_⟩
  obtain ⟨_, _, _, _, _, _, _, rfl⟩ := h.frame
  exact horder

end KeepsRing

/-! ## Records leave and join the ring (R137, R141, R142) -/

/-- With no records and no receptions there is nothing to bound or to order. -/
theorem ringOk_of_empty {s : State} (hring : s.ring = []) (hnone : ∀ q, reception q s = none) : RingOk s := by
  refine ⟨⟨?_, fun q r hr => ?_⟩, fun i hi => ?_⟩
  · rw [hring, reservedCount_eq]
    simp only [hnone, holdsPlace, Bool.toNat_false]
    decide
  · rw [hnone q] at hr
    cases hr
  · rw [hring] at hi
    cases hi

/-- All records are removed. -/
theorem ringOk_flushed {s : State} (h : RingOk s) : RingOk { s with ring := [] } := by
  obtain ⟨⟨hbound, hreserved⟩, -⟩ := h
  refine ⟨⟨?_, hreserved⟩, fun i hi => absurd hi (Nat.not_lt_zero i)⟩
  exact (Nat.add_le_add_right (Nat.zero_le s.ring.length) (reservedCount s)).trans hbound

/-- The oldest record is removed: each other one stands as far from the newest as before. -/
theorem ringOk_popped {s : State} {r : CaptureRecord} {rest : List CaptureRecord} (hring : s.ring = r :: rest)
    (h : RingOk s) : RingOk { s with ring := rest } := by
  obtain ⟨⟨hbound, hreserved⟩, horder⟩ := h
  rw [hring, List.length_cons] at hbound
  rw [RingInOrder, hring] at horder
  refine ⟨⟨?_, hreserved⟩, fun i hi => ?_⟩
  · have hfewer : rest.length + reservedCount s ≤ Config.ringPlaces := by omega
    exact hfewer
  · have hnext := horder (i + 1) (Nat.succ_lt_succ hi)
    rw [List.length_cons, Nat.add_sub_add_right] at hnext
    exact hnext

/-- A record with the next sequence joins at the tail: each older one stands one place further from the newest. -/
theorem ringInOrder_pushed {s t : State} {r : CaptureRecord} (hr : r.sequence = s.nextSequence)
    (hring : t.ring = s.ring ++ [r]) (hsequence : t.nextSequence = s.nextSequence + 1#16) (h : RingInOrder s) :
    RingInOrder t := by
  have hback (n : BitVec 16) (k : Nat) : n + 1#16 - BitVec.ofNat 16 (k + 1) = n - BitVec.ofNat 16 k := by
    rw [BitVec.ofNat_add]
    exact add_sub_add_right_eq_sub n (BitVec.ofNat 16 k) 1#16
  rw [RingInOrder, hring, hsequence]
  intro i hi
  have hlength : (s.ring ++ [r]).length = s.ring.length + 1 := List.length_append
  have hplace : (s.ring ++ [r]).length - i = s.ring.length - i + 1 := by omega
  rw [hplace, hback]
  by_cases hold : i < s.ring.length
  · rw [List.getElem_append_left hold]
    exact h i hold
  · obtain rfl : i = s.ring.length := by omega
    rw [List.getElem_concat_length rfl, hr, Nat.sub_self]
    exact (BitVec.sub_zero _).symm

/-! ## Receptions open and end (R135 to R137) -/

/-- A reception opens with its reservation, for which the ring has a place. -/
theorem ringBounded_opened {q : SegId} {r : Reception} {s : State} (hreserved : r.reserved = needsPlace r.action)
    (hplace : r.reserved = true → s.ring.length + reservedCount s < Config.ringPlaces) (h : RingBounded s) :
    RingBounded (setReception q (some r) s) := by
  obtain ⟨hbound, hothers⟩ := h
  have hcount := reservedCount_setReception q (some r) s
  have hnew : holdsPlace (some r) = r.reserved := rfl
  rw [hnew] at hcount
  refine ⟨?_, fun j x hx => ?_⟩
  · rw [ring_setReception]
    cases hr : r.reserved with
    | false =>
      rw [hr, Bool.toNat_false] at hcount
      omega
    | true =>
      rw [hr, Bool.toNat_true] at hcount
      have hfree := hplace hr
      omega
  · by_cases hj : j = q
    · subst hj
      rw [reception_setReception_same] at hx
      cases hx
      exact hreserved
    · rw [reception_setReception_ne _ _ _ hj] at hx
      exact hothers j x hx

theorem openReception_ring (seg : SegId) (i : ListenId) (address : DeviceAddr) (action : ListenAction) {s : State}
    (hplace : needsPlace action = true → s.ring.length + reservedCount s < Config.ringPlaces) :
    KeepsRing s (openReception seg i address action s) :=
  fun ⟨hbounded, horder⟩ =>
    KeepsRing.of_line (modCtl_line seg _ _) ⟨ringBounded_opened rfl hplace hbounded, horder⟩

theorem decideAddress_ring (seg : SegId) (byte : Byte) (s : State) : KeepsRing s (decideAddress seg byte s) := by
  unfold decideAddress
  split
  · exact .refl s
  · split
    · exact .refl s
    · split
      · exact .refl s
      · split
        · exact .of_same rfl rfl rfl
        · next hadmitted =>
          refine openReception_ring seg _ _ _ fun hneeds => Nat.lt_of_sub_ne_zero fun hnone => ?_
          exact hadmitted ⟨hneeds, hnone⟩

theorem addressByteDecisionEvent_ring (seg : SegId) (byte : Byte) (s : State) :
    KeepsRing s (addressByteDecisionEvent seg byte s) := by
  unfold addressByteDecisionEvent
  split
  · exact (KeepsRing.of_line (modCtl_line seg _ s)).trans (decideAddress_ring seg _ _)
  · exact .refl s

/-- A reception's reservation becomes its record, in the place it has held (R137). -/
theorem ringOk_receptionTaken {q : SegId} {r : Reception} {s : State} (bytes : List Byte) (hr : reception q s = some r)
    (h : RingOk s) : RingOk (receptionTaken q bytes r s) := by
  obtain ⟨hbounded, horder⟩ := h
  obtain ⟨hclosed, hothers⟩ := ringBounded_close (q := q) hbounded
  have hcount : reservedCount (receptionTaken q bytes r s) = reservedCount (setReception q none s) := rfl
  by_cases hcaptures : r.action = .capture ∨ r.action = .captureRefresh
  · have hring : (receptionTaken q bytes r s).ring = s.ring ++ [recordOf q bytes r s] := if_pos hcaptures
    have hsequence : (receptionTaken q bytes r s).nextSequence = s.nextSequence + 1#16 := if_pos hcaptures
    refine ⟨⟨?_, hothers⟩, ringInOrder_pushed rfl hring hsequence horder⟩
    obtain ⟨hbound, hreserved⟩ := hbounded
    have hheld : holdsPlace (reception q s) = true := by
      rw [hr]
      exact (hreserved q r hr).trans ((needsPlace_iff r.action).2 hcaptures)
    have hfreed := reservedCount_setReception q none s
    have hnone : holdsPlace none = false := rfl
    rw [hheld, hnone, Bool.toNat_true, Bool.toNat_false] at hfreed
    rw [hring, hcount, List.length_append, List.length_singleton]
    omega
  · have hring : (receptionTaken q bytes r s).ring = s.ring := if_neg hcaptures
    have hsequence : (receptionTaken q bytes r s).nextSequence = s.nextSequence := if_neg hcaptures
    refine ⟨⟨?_, hothers⟩, ?_⟩
    · rw [hring, hcount]
      exact hclosed
    · rw [RingInOrder, hring, hsequence]
      exact horder

theorem receptionEndEvent_ring (seg : SegId) (bytes : List Byte) (ending : ReceptionEnding) (s : State) :
    KeepsRing s (receptionEndEvent seg bytes ending s) := by
  unfold receptionEndEvent
  split
  · next r _ hr =>
    have htaken : KeepsRing s (receptionTaken seg bytes r s) := ringOk_receptionTaken bytes hr
    rw [endReception_eq]
    dsimp only
    split
    · exact htaken.trans (.of_line (foreignEnds_line seg _))
    · exact htaken.trans (.of_line (modCtl_line seg _ _))
  · exact .refl s

theorem foreignStartEvent_ring (seg : SegId) (s : State) : KeepsRing s (foreignStartEvent seg s) := by
  have hbegins : KeepsRing s (foreignBegins seg s) := .of_line (foreignBegins_line seg s)
  unfold foreignStartEvent
  split
  iterate 3 exact hbegins
  · split
    · exact hbegins
    all_goals exact .refl s
  · exact .of_line (modCtl_line seg _ s)
  · exact receptionEndEvent_ring seg [] .repeatedStart s
  all_goals exact .refl s

theorem foreignStopEvent_ring (seg : SegId) (s : State) : KeepsRing s (foreignStopEvent seg s) := by
  unfold foreignStopEvent
  split
  · exact .of_line (foreignEnds_line seg s)
  · exact receptionEndEvent_ring seg [] .stop s
  all_goals exact .refl s

/-! ## Reports and due timers at the Mirror Table -/

/-- A report in flight is taken: the reports are no matter of the ring. -/
theorem reports_ring (rs : List Report) (s : State) : KeepsRing s { s with reports := rs } := .of_same rfl rfl rfl

theorem startTaken_ring (e : EntryId) (r : JobRef) (s : State) : KeepsRing s (startTaken e r s) := by
  unfold startTaken
  dsimp only
  split
  · exact .refl s
  · split
    · split <;> exact .of_same rfl rfl rfl
    · exact .refl s

theorem startReportEvent_ring (e : EntryId) (s : State) : KeepsRing s (startReportEvent e s) := by
  unfold startReportEvent
  split
  · exact ((reports_ring _ s).trans (.of_mirror (modEntry_step e _ _))).trans (startTaken_ring e _ _)
  all_goals exact .refl s

theorem refreshCompletionEvent_ring (e : EntryId) (s : State) : KeepsRing s (refreshCompletionEvent e s) := by
  unfold refreshCompletionEvent
  split
  · split
    · exact (reports_ring _ s).trans (.of_mirror (takeRefresh_step e _ _))
    · exact .refl s
  all_goals exact .refl s

theorem memberRefreshCompletionEvent_ring (e : EntryId) (s : State) :
    KeepsRing s (memberRefreshCompletionEvent e s) := by
  unfold memberRefreshCompletionEvent
  split
  · split
    · exact .refl s
    · split
      · exact (reports_ring _ s).trans (.of_mirror (takeMemberRefresh_step e _ _ _))
      · exact .refl s
  all_goals exact .refl s

theorem writeCompletionEvent_ring (e : EntryId) (s : State) : KeepsRing s (writeCompletionEvent e s) := by
  unfold writeCompletionEvent
  split
  · dsimp only
    split
    · split
      · exact (reports_ring _ s).trans (.of_mirror (enabledWrite_step e _ _))
      · exact (reports_ring _ s).trans (.of_mirror ((modEntry_step e _ _).trans (reachDisabled_step e _)))
      · exact reports_ring _ s
    · exact .refl s
  all_goals exact .refl s

theorem slotCompletionEvent_ring (k : SlotId) (s : State) : KeepsRing s (slotCompletionEvent k s) := by
  unfold slotCompletionEvent
  split <;> exact .of_same rfl rfl rfl

theorem deviceNoticeEvent_ring (s : State) : KeepsRing s (deviceNoticeEvent s) := by
  unfold deviceNoticeEvent
  split
  · exact .refl s
  · next n rest _ =>
    have htaken : KeepsRing s { s with notices := rest } := .of_same rfl rfl rfl
    exact htaken.trans (.of_mirror (takeNotice_step n _))

theorem entryDueExpiryEvent_ring (e : EntryId) (s : State) : KeepsRing s (entryDueExpiryEvent e s) := by
  unfold entryDueExpiryEvent
  split
  · split
    · exact .of_mirror (entryExpiry_step e _ s)
    · exact .refl s
  · exact .refl s

theorem groupDueExpiryEvent_ring (g : GroupId) (s : State) : KeepsRing s (groupDueExpiryEvent g s) := by
  unfold groupDueExpiryEvent
  split
  · split
    · exact .of_mirror (groupExpiry_step g _ s)
    · exact .refl s
  · exact .refl s

/-! ## Resets and the timebase -/

/-- What passes on the lines reaches the ring with the reception's end only (R91, R137). -/
theorem linesPass_ring (ws : List LineReport) (s : State) : KeepsRing s (linesPass ws s) := by
  obtain ⟨⟨cs, hframe⟩, -⟩ := takeLineReports_same ws s
  rw [hframe]
  exact .of_same rfl rfl rfl

theorem tick_ring (ws : List LineReport) (s : State) : KeepsRing s (tick ws s) :=
  (linesPass_ring ws s).trans (.of_same rfl rfl rfl)

theorem nextDeliveries_ring (n : Nat) (s : State) : KeepsRing s (nextDeliveries n s) := by
  induction n generalizing s with
  | zero => exact .refl s
  | succ n ih => exact KeepsRing.trans nextDelivery_ring (ih _)

theorem softReset_ring (taken : Fin 21) (u : Unit) (s : State) : KeepsRing s (softReset taken u s).1 := by
  have hbegun : KeepsRing s { s with resetting := true, undelivered := 20 } := .of_same rfl rfl rfl
  exact hbegun.trans (nextDeliveries_ring taken.val _)

theorem pinReset_ring (s : State) : KeepsRing s (pinReset s) := fun _ => ringOk_of_empty rfl reception_reset

/-! ## The owners of the commands -/

theorem slotSubmit_ring (k : SlotId) (s : State) : KeepsRing s (slotSubmit k s).1 := by
  have hadmit := KeepsRing.of_mirror
    (admit_step (slot k s).seg { ref := .direct k, cls := .urgent, tag := none, attempts := 0#3 } s)
  unfold slotSubmit
  split
  · exact .refl s
  · split
    · exact .refl s
    · revert hadmit
      split <;> next heq => rw [heq]; intro hadmit; exact hadmit.trans (.of_same rfl rfl rfl)

theorem slotCancel_ring (k : SlotId) (s : State) : KeepsRing s (slotCancel k s).1 := by
  have hpending : KeepsRing s (modSlot k (fun x => { x with cancelPending := true }) s) := .of_same rfl rfl rfl
  unfold slotCancel
  split
  · exact .refl s
  · exact .refl s
  · exact (KeepsRing.of_mirror (removeJob_step _ _ s)).trans (.of_same rfl rfl rfl)
  · split
    · exact .refl s
    · exact hpending.trans (.of_line (abortRequest_line _ k _))

theorem slotRelease_ring (k : SlotId) (s : State) : KeepsRing s (slotRelease k s).1 := by
  unfold slotRelease
  split <;> exact .of_same rfl rfl rfl

theorem listenEnable_ring (i : ListenId) (s : State) : KeepsRing s (listenEnable i s).1 := by
  unfold listenEnable
  split
  · exact .refl s
  · split <;> exact .of_same rfl rfl rfl

theorem listenDisable_ring (i : ListenId) (s : State) : KeepsRing s (listenDisable i s).1 := by
  unfold listenDisable
  split <;> exact .of_same rfl rfl rfl

theorem capturePop_ring (u : Unit) (s : State) : KeepsRing s (capturePop u s).1 := by
  unfold capturePop
  split
  · exact .refl s
  · next hring => exact ringOk_popped hring

theorem captureFlush_ring (u : Unit) (s : State) : KeepsRing s (captureFlush u s).1 := ringOk_flushed

/-! ## The Command Port (R146, R147) -/

theorem outOfReset_ring {f : State → State} (h : ∀ s, KeepsRing s (f s)) (s : State) : KeepsRing s (outOfReset f s) := by
  unfold outOfReset
  split
  · exact .refl s
  · exact h s

/-- An event of one segment, which takes place while RESETn is released. -/
theorem segmentEvent_ring {f : State → State} {seg : SegId} (h : ∀ s, SegStep seg s (f s)) (s : State) :
    KeepsRing s (outOfReset f s) := outOfReset_ring (fun s => .of_line (h s).line) s

theorem answerCommand_ring (code : Byte) (tag : Half) (a : Answer) (s : State) :
    KeepsRing s (answerCommand code tag a s) := by
  cases a <;> exact .of_same rfl rfl rfl

section
variable {α : Type} {owner : α → State → State × Answer} {code arg : Byte} {tag : Half} {index : Option α}

/-- A command with a known code is its owner's. -/
theorem portCommand_ring (h : ∀ i s, KeepsRing s (owner i s).1) (s : State) :
    KeepsRing s (portCommand code arg tag index owner s) := by
  have hword : KeepsRing s { s with command := commandWord code arg tag } := .of_same rfl rfl rfl
  unfold portCommand
  split
  · exact .refl s
  · dsimp only
    split
    · exact hword.trans (answerCommand_ring _ _ _ _)
    · split
      · exact hword.trans (answerCommand_ring _ _ _ _)
      · exact (hword.trans (h _ _)).trans (answerCommand_ring _ _ _ _)

/-- An entry command or GROUP_SWEEP. -/
theorem mirrorCommand_ring (h : ∀ i s, MirrorStep s (owner i s).1) (s : State) :
    KeepsRing s (portCommand code arg tag index owner s) := portCommand_ring (fun i s => .of_mirror (h i s)) s

end

/-- A segment command. -/
theorem segmentCommand_ring {owner : SegId → State → State × Answer} {code arg : Byte} {tag : Half}
    {index : Option SegId} (h : ∀ q s, SegStep q s (owner q s).1) (s : State) :
    KeepsRing s (portCommand code arg tag index owner s) := portCommand_ring (fun q s => .of_line (h q s).line) s

theorem issueCommand_ring (code arg : Byte) (tag : Half) (s : State) : KeepsRing s (issueCommand code arg tag s) := by
  have hdraw : KeepsRing s (drawSense s) := .of_same rfl rfl rfl
  unfold issueCommand
  split
  · exact .refl s
  · split
    · exact mirrorCommand_ring entryEnable_step s
    · exact mirrorCommand_ring entryDisable_step s
    · exact mirrorCommand_ring entryRefresh_step s
    · exact mirrorCommand_ring entryCommit_step s
    · exact mirrorCommand_ring entryAckFault_step s
    · exact mirrorCommand_ring groupSweep_step s
    · exact hdraw.trans (segmentCommand_ring (segmentOnline_segStep _) _)
    · exact segmentCommand_ring segmentOffline_segStep s
    · exact hdraw.trans (segmentCommand_ring (segmentRestore_segStep _) _)
    · exact portCommand_ring slotSubmit_ring s
    · exact portCommand_ring slotCancel_ring s
    · exact portCommand_ring slotRelease_ring s
    · exact portCommand_ring listenEnable_ring s
    · exact portCommand_ring listenDisable_ring s
    · exact portCommand_ring capturePop_ring s
    · exact portCommand_ring captureFlush_ring s
    · exact portCommand_ring (softReset_ring 20) s
    · exact .of_same rfl rfl rfl

/-! ## Host accesses (R155 to R158) -/

theorem storeGroupPeriod_ring (g : GroupId) (period : Half) (s : State) : KeepsRing s (storeGroupPeriod g period s) := by
  have hstored : MirrorStep s (modGroup g (fun x => { x with period := period }) s) := modGroup_step g _ s
  unfold storeGroupPeriod
  dsimp only
  split
  · exact .of_mirror (hstored.trans (groupExpiry_step g _ _))
  · exact .of_mirror hstored

theorem storeGlobal_ring (g : GlobalWord) (data : Word) (s : State) : KeepsRing s (storeGlobal g data s) := by
  unfold storeGlobal
  split
  · exact issueCommand_ring _ _ _ s
  all_goals exact .of_same rfl rfl rfl

theorem storeLoc_ring (l : Loc) (be : BitVec 4) (data : Word) (s : State) : KeepsRing s (storeLoc l be data s) := by
  unfold storeLoc
  split
  case h_1 g => exact storeGlobal_ring g data s
  case h_4 g => exact storeGroupPeriod_ring g _ s
  all_goals exact .of_same rfl rfl rfl

theorem writeWord_ring (l : Option Loc) (a : Addr) (be : BitVec 4) (data : Word) (s : State) :
    KeepsRing s (writeWord l a be data s) := by
  unfold writeWord
  split
  · exact .refl s
  · split
    · exact storeLoc_ring _ be data s
    · exact .of_same rfl rfl rfl
    · exact .refl s

theorem hostRead_ring (a : Addr) (s : State) : KeepsRing s (hostRead a s) := by
  unfold hostRead
  dsimp only
  split <;> exact .of_same rfl rfl rfl

/-! ## Every command -/

/-- A command answers a next state with the invariant of the ring. -/
theorem exec_ring (i : Instr) (s : State) : ∃ t, exec i s = .next t ∧ KeepsRing s t := by
  have hlines (reports : List LineReport) := outOfReset_ring (linesPass_ring reports) s
  cases i with
  | entryEnable arg tag => exact ⟨_, rfl, mirrorCommand_ring entryEnable_step s⟩
  | entryDisable arg tag => exact ⟨_, rfl, mirrorCommand_ring entryDisable_step s⟩
  | entryRefresh arg tag => exact ⟨_, rfl, mirrorCommand_ring entryRefresh_step s⟩
  | entryCommit arg tag => exact ⟨_, rfl, mirrorCommand_ring entryCommit_step s⟩
  | entryAckFault arg tag => exact ⟨_, rfl, mirrorCommand_ring entryAckFault_step s⟩
  | groupSweep arg tag => exact ⟨_, rfl, mirrorCommand_ring groupSweep_step s⟩
  | segmentOnline arg tag sense => exact ⟨_, rfl, segmentCommand_ring (segmentOnline_segStep sense) s⟩
  | segmentOffline arg tag => exact ⟨_, rfl, segmentCommand_ring segmentOffline_segStep s⟩
  | segmentRestore arg tag sense => exact ⟨_, rfl, segmentCommand_ring (segmentRestore_segStep sense) s⟩
  | slotSubmit arg tag => exact ⟨_, rfl, portCommand_ring slotSubmit_ring s⟩
  | slotCancel arg tag reports => exact ⟨_, rfl, (hlines reports).trans (portCommand_ring slotCancel_ring _)⟩
  | slotRelease arg tag => exact ⟨_, rfl, portCommand_ring slotRelease_ring s⟩
  | listenEnable arg tag => exact ⟨_, rfl, portCommand_ring listenEnable_ring s⟩
  | listenDisable arg tag => exact ⟨_, rfl, portCommand_ring listenDisable_ring s⟩
  | capturePop arg tag => exact ⟨_, rfl, portCommand_ring capturePop_ring s⟩
  | captureFlush arg tag => exact ⟨_, rfl, portCommand_ring captureFlush_ring s⟩
  | softReset arg tag reports taken => exact ⟨_, rfl, (hlines reports).trans (portCommand_ring (softReset_ring taken) _)⟩
  | unknownCommand code arg tag => exact ⟨_, rfl, issueCommand_ring code arg tag s⟩
  | stagingBufferWrite e w be data => exact ⟨_, rfl, writeWord_ring _ _ be data s⟩
  | groupPeriodWrite r be data => exact ⟨_, rfl, writeWord_ring _ _ be data s⟩
  | eventFlagWrite be data => exact ⟨_, rfl, writeWord_ring _ _ be data s⟩
  | eventEnableWrite be data => exact ⟨_, rfl, writeWord_ring _ _ be data s⟩
  | accessErrorRecordClear be data => exact ⟨_, rfl, writeWord_ring _ _ be data s⟩
  | accessErrorCountClear be data => exact ⟨_, rfl, writeWord_ring _ _ be data s⟩
  | hostWrite a be data => exact ⟨_, rfl, writeWord_ring _ a be data s⟩
  | unmappedRead a => exact ⟨_, rfl, hostRead_ring a s⟩
  | pinReset => exact ⟨_, rfl, pinReset_ring s⟩
  | pinResetRelease => exact ⟨_, rfl, .of_same rfl rfl rfl⟩
  | timebaseTick reports => exact ⟨_, rfl, outOfReset_ring (tick_ring reports) s⟩
  | entryDueExpiry e => exact ⟨_, rfl, outOfReset_ring (entryDueExpiryEvent_ring e) s⟩
  | groupDueExpiry g => exact ⟨_, rfl, outOfReset_ring (groupDueExpiryEvent_ring g) s⟩
  | selection q => exact ⟨_, rfl, segmentEvent_ring (selectionEvent_segStep q) s⟩
  | startReport e => exact ⟨_, rfl, outOfReset_ring (startReportEvent_ring e) s⟩
  | attemptBegin q lines sense => exact ⟨_, rfl, segmentEvent_ring (attemptBeginEvent_segStep q lines sense) s⟩
  | frameEnd q wire => exact ⟨_, rfl, segmentEvent_ring (frameEndEvent_segStep q wire) s⟩
  | frameEndedEarly q wire => exact ⟨_, rfl, segmentEvent_ring (frameEndedEarlyEvent_segStep q wire) s⟩
  | arbitrationLoss q wire p => exact ⟨_, rfl, segmentEvent_ring (arbitrationLossEvent_segStep q wire p) s⟩
  | holdTimeout q wire => exact ⟨_, rfl, segmentEvent_ring (holdTimeoutEvent_segStep q wire) s⟩
  | stopAttemptEnd q => exact ⟨_, rfl, segmentEvent_ring (stopAttemptEndEvent_segStep q) s⟩
  | stopAttemptTimeout q sense => exact ⟨_, rfl, segmentEvent_ring (stopAttemptTimeoutEvent_segStep q sense) s⟩
  | settleEnd q => exact ⟨_, rfl, segmentEvent_ring (settleEndEvent_segStep q) s⟩
  | backoffEnd q => exact ⟨_, rfl, segmentEvent_ring (backoffEndEvent_segStep q) s⟩
  | busyLimitExpiry q => exact ⟨_, rfl, segmentEvent_ring (busyLimitExpiryEvent_segStep q) s⟩
  | foreignStart q => exact ⟨_, rfl, outOfReset_ring (foreignStartEvent_ring q) s⟩
  | foreignStop q => exact ⟨_, rfl, outOfReset_ring (foreignStopEvent_ring q) s⟩
  | addressByteDecision q byte => exact ⟨_, rfl, outOfReset_ring (addressByteDecisionEvent_ring q byte) s⟩
  | receptionEnd q bytes ending => exact ⟨_, rfl, outOfReset_ring (receptionEndEvent_ring q bytes ending) s⟩
  | deviceNotice => exact ⟨_, rfl, outOfReset_ring deviceNoticeEvent_ring s⟩
  | refreshCompletion e => exact ⟨_, rfl, outOfReset_ring (refreshCompletionEvent_ring e) s⟩
  | memberRefreshCompletion e => exact ⟨_, rfl, outOfReset_ring (memberRefreshCompletionEvent_ring e) s⟩
  | writeCompletion e => exact ⟨_, rfl, outOfReset_ring (writeCompletionEvent_ring e) s⟩
  | slotCompletion k => exact ⟨_, rfl, outOfReset_ring (slotCompletionEvent_ring k) s⟩
  | releasePulse q lines after => exact ⟨_, rfl, segmentEvent_ring (releasePulseEvent_segStep q lines after) s⟩
  | lineClearHoldEnd q lines after => exact ⟨_, rfl, segmentEvent_ring (lineClearHoldEndEvent_segStep q lines after) s⟩
  | recoveryHoldTimeout q => exact ⟨_, rfl, segmentEvent_ring (recoveryHoldTimeoutEvent_segStep q) s⟩
  | clockLineSensedHigh q sda sense =>
    exact ⟨_, rfl, segmentEvent_ring (clockLineSensedHighEvent_segStep q sda sense) s⟩
  | recoveryLinesSensedHigh q sda after =>
    exact ⟨_, rfl, segmentEvent_ring (recoveryLinesSensedHighEvent_segStep q sda after) s⟩

/-- A step takes the front command, or on an empty queue the next delivery of a soft reset. -/
theorem step_ring {s t : State} (h : step s = .next t) : KeepsRing s t := by
  unfold step at h
  split at h
  · cases h
    exact outOfReset_ring (fun _ => nextDelivery_ring) s
  · next c rest _ =>
    obtain ⟨u, hu, hkeeps⟩ := exec_ring c { s with pending := rest }
    rw [hu] at h
    cases h
    have htaken : KeepsRing s { s with pending := rest } := .of_same rfl rfl rfl
    exact htaken.trans hkeeps

/-- Settles O57: every command keeps the ring, and the record of a reception takes the place reserved for it. -/
theorem ringStaysBoundedAndInOrder : Obligations.RingStaysBoundedAndInOrder :=
  fun _ _ hbounded horder h => step_ring h ⟨hbounded, horder⟩

end Sys2Proof.Proofs
end

section
/-! The listen and capture commands, each by its refusals and its effect (R132, R133, R141, R142). -/

namespace Sys2Proof.Proofs

open Sys2Proof.Machine Sys2Proof.Safety Sys2Proof.Spec

/-! ## LISTEN_ENABLE and LISTEN_DISABLE at the entry (R132, R133) -/

/-- The action codes that name none (Table 8.2). -/
theorem listenAction_eq_none_iff : ∀ code : BitVec 3, listenAction code = none ↔ 4 ≤ code.toNat := by decide

section
variable {i : ListenId} {s : State}

theorem listenEnable_badState (h : (listenEntry i s).enabled = true) : listenEnable i s = (s, .refused .badState) := by
  rw [listenEnable, if_pos h]

theorem listenEnable_badConfig (h : (listenEntry i s).enabled = false)
    (hbad : (listenEntry i s).mask = 0#8 ∨ 4 ≤ (listenEntry i s).action.toNat) :
    listenEnable i s = (s, .refused .badConfig) := by
  rw [listenEnable, if_neg (Bool.eq_false_iff.1 h), if_pos (hbad.imp_right (listenAction_eq_none_iff _).2)]

theorem listenEnable_enables (h : (listenEntry i s).enabled = false) (hmask : (listenEntry i s).mask ≠ 0#8)
    (haction : (listenEntry i s).action.toNat < 4) :
    listenEnable i s = (modListen i (fun x => { x with enabled := true }) s, .accepted) := by
  have hgood : ¬ ((listenEntry i s).mask = 0#8 ∨ listenAction (listenEntry i s).action = none) :=
    not_or.2 ⟨hmask, mt (listenAction_eq_none_iff _).1 (Nat.not_le.2 haction)⟩
  rw [listenEnable, if_neg (Bool.eq_false_iff.1 h), if_neg hgood]

theorem listenDisable_badState (h : (listenEntry i s).enabled = false) :
    listenDisable i s = (s, .refused .badState) := by
  rw [listenDisable, if_neg (Bool.eq_false_iff.1 h)]

theorem listenDisable_disables (h : (listenEntry i s).enabled = true) :
    listenDisable i s = (modListen i (fun x => { x with enabled := false }) s, .accepted) := by
  rw [listenDisable, if_pos h]

/-! ## CAPTURE_POP at the ring (R141) -/

theorem capturePop_empty (h : s.ring = []) : capturePop () s = (s, .refused .empty) := by
  rw [capturePop, h]

theorem capturePop_oldest {r : CaptureRecord} {rest : List CaptureRecord} (h : s.ring = r :: rest) :
    capturePop () s = ({ s with ring := rest }, .accepted) := by
  rw [capturePop, h]

end

/-! ## The commands -/

section
variable {s t : State} {answer : Answer} (hs : Ready s)
include hs

/-- A command that names a record is answered as its owner answers, which finds the command word kept (R146). -/
theorem portCommand_answered {n : Nat} (hn : n ≤ 256) {code : Byte} {i : Fin n} {tag : Half}
    {owner : Fin n → State → State × Answer} (h : owner i (issued code (indexByte i) tag s) = (t, answer)) :
    portCommand code (indexByte i) tag (indexOf n (indexByte i).toNat) owner s = answerCommand code tag answer t := by
  rw [portCommand_indexByte hn code i tag owner hs, h]

theorem exec_listenEnable (i : ListenId) (tag : Half)
    (h : listenEnable i (issued 0x40#8 (indexByte i) tag s) = (t, answer)) :
    exec (.listenEnable (indexByte i) tag) s = .next (answerCommand 0x40#8 tag answer t) :=
  congrArg Host.Outcome.next (portCommand_answered hs (by decide) h)

theorem exec_listenDisable (i : ListenId) (tag : Half)
    (h : listenDisable i (issued 0x41#8 (indexByte i) tag s) = (t, answer)) :
    exec (.listenDisable (indexByte i) tag) s = .next (answerCommand 0x41#8 tag answer t) :=
  congrArg Host.Outcome.next (portCommand_answered hs (by decide) h)

/-- CAPTURE_POP is answered by the ring, whatever its argument (R147). -/
theorem exec_capturePop (arg : Byte) (tag : Half) (h : capturePop () (issued 0x50#8 arg tag s) = (t, answer)) :
    exec (.capturePop arg tag) s = .next (answerCommand 0x50#8 tag answer t) := by
  have hport := portCommand_ready 0x50#8 arg tag () capturePop hs.1 hs.2
  exact congrArg Host.Outcome.next
    (hport.trans (congrArg (fun x => answerCommand 0x50#8 tag x.2 x.1) h))

theorem exec_captureFlush (arg : Byte) (tag : Half) :
    exec (.captureFlush arg tag) s = .next (accepted 0x51#8 arg tag { s with ring := [] }) :=
  congrArg Host.Outcome.next (portCommand_ready 0x51#8 arg tag () captureFlush hs.1 hs.2)

end

/-- Settles O47: the refusals of each command in their order, then its effect. -/
theorem listenAndCaptureCommands : Obligations.ListenAndCaptureCommands := by
  intro i arg tag s hs
  exact ⟨fun h => exec_listenEnable hs i tag (listenEnable_badState h),
    fun h hbad => exec_listenEnable hs i tag (listenEnable_badConfig h hbad),
    fun h hmask haction => exec_listenEnable hs i tag (listenEnable_enables h hmask haction),
    fun h => exec_listenDisable hs i tag (listenDisable_badState h),
    fun h => exec_listenDisable hs i tag (listenDisable_disables h),
    fun h => exec_capturePop hs arg tag (capturePop_empty h),
    fun _ _ h => exec_capturePop hs arg tag (capturePop_oldest h),
    exec_captureFlush hs arg tag⟩

end Sys2Proof.Proofs
end

section
/-! Steps, the rows that write a word of the window, and the Command Port (R146, R147, R155; Tables 9.1, 10.2 and 10.3): a step runs
the front command, a row for a single word is a host write of that word, a full write of the command word is the command of its
code, and every command is checked at the Command Port and then answered by its owner. -/

namespace Sys2Proof.Proofs

open Sys2Proof.Machine Sys2Proof.Safety Sys2Proof.Spec

/-! ## Steps -/

theorem step_command (c : Instr) (rest : List Instr) (s : State) :
    step { s with pending := c :: rest } = exec c { s with pending := rest } := rfl

/-- On an empty queue the next delivery of a soft reset is taken (log entries 4 and 32). -/
theorem step_empty {s : State} (h : s.pending = []) : step s = .next (outOfReset nextDelivery s) := by
  rw [step, h]

theorem step_delivery {s : State} (h : s.pending = []) (hs : s.inReset = false) : step s = .next (nextDelivery s) := by
  rw [step_empty h, outOfReset_released hs]

theorem step_idle {s : State} (h : s.pending = []) (hidle : s.inReset = true ∨ s.resetting = false ∨ s.undelivered = 0) :
    step s = .next s := by
  have hnone : outOfReset nextDelivery s = s := by
    unfold outOfReset
    rcases hidle with hs | hdone
    · rw [if_pos hs]
    · rw [nextDelivery_idle hdone, ite_self]
  rw [step_empty h, hnone]

/-- Settles O1: the front command, then the empty queue, and the next state each command has. -/
theorem stepRunsTheFrontCommand : Obligations.StepRunsTheFrontCommand :=
  ⟨step_command, fun _ h hs => step_delivery h hs, fun _ h hidle => step_idle h hidle,
    fun c s => (exec_part c s).imp fun _ h => h.1⟩

/-! ## Addresses of the rows' words (Tables 10.2 and 10.3) -/

theorem locate_stagingAddr (e : EntryId) (w : Fin 8) : locate (stagingAddr e w) = some (.staging e w) := by
  have he := e.isLt
  have hw := w.isLt
  have hword : (stagingAddr e w).toNat / 4 = 0x2000 / 4 + 8 * e.val + w.val := by
    rw [stagingAddr, BitVec.toNat_ofNat, Nat.mod_eq_of_lt (by omega)]
    omega
  have hentry : Fin.ofNat 128 ((0x2000 / 4 + 8 * e.val + w.val - 0x2000 / 4) / 8) = e := Fin.ext (by simp; omega)
  have hindex : Fin.ofNat 8 (0x2000 / 4 + 8 * e.val + w.val) = w := Fin.ext (by simp; omega)
  unfold locate
  rw [hword]
  dsimp only
  repeat rw [if_neg (by omega)]
  rw [if_pos (by omega), hentry, hindex]

theorem locate_groupPeriodAddr : ∀ r : Fin 16, locate (groupPeriodAddr r) = groupLoc r 0 := by decide

theorem locate_flagsAddr : locate flagsAddr = some (.global .flags) := by decide
theorem locate_enablesAddr : locate enablesAddr = some (.global .enables) := by decide
theorem locate_accessRecordAddr : locate accessRecordAddr = some (.global .accessRecord) := by decide
theorem locate_accessCountAddr : locate accessCountAddr = some (.global .accessCount) := by decide
theorem locate_command : locate 0x0008#14 = some (.global .command) := by decide

/-- A host write is the write of the word its address selects (R155). -/
theorem exec_hostWrite_at {a : Addr} {l : Option Loc} (h : locate a = l) (be : BitVec 4) (data : Word) (s : State) :
    exec (.hostWrite a be data) s = .next (writeWord l a be data s) := by
  rw [← h]
  rfl

/-- While RESETn is asserted a host write changes nothing (R160). -/
theorem writeWord_inReset (l : Option Loc) (a : Addr) (be : BitVec 4) (data : Word) {s : State} (hs : s.inReset = true) :
    writeWord l a be data s = s := by
  unfold writeWord
  rw [if_pos hs]

/-! ## Full writes of the command word (Table 9.1) -/

/-- The fields of the command word stand side by side (Table 10.3). -/
theorem getLsbD_word (code arg : Byte) (tag : Half) (i : Nat) :
    (word code arg tag).getLsbD i
      = if i < 8 then code.getLsbD i else if i < 16 then arg.getLsbD (i - 8) else tag.getLsbD (i - 16) := by
  show (tag ++ arg ++ code).getLsbD i = _
  rw [BitVec.getLsbD_append, BitVec.getLsbD_append]
  grind

theorem word_code (code arg : Byte) (tag : Half) : (word code arg tag).extractLsb' 0 8 = code := by
  ext i hi
  simp [getLsbD_word, hi, BitVec.getLsbD_eq_getElem]

theorem word_arg (code arg : Byte) (tag : Half) : (word code arg tag).extractLsb' 8 8 = arg := by
  ext i hi
  simp [getLsbD_word, hi, BitVec.getLsbD_eq_getElem, show 8 + i < 16 by omega]

theorem word_tag (code arg : Byte) (tag : Half) : (word code arg tag).extractLsb' 16 16 = tag := by
  ext i hi
  simp [getLsbD_word, BitVec.getLsbD_eq_getElem, hi, show ¬ 16 + i < 8 by omega]

/-- A full write of the command word is stored in every state of the Command Port (R150, Table 10.1). -/
theorem writeError_command (s : State) : writeError (some (.global .command)) 0xF#4 s = none := by
  simp [writeError, Loc.kind, GlobalWord.kind, takenWhileResetting, locked, readModeStaging]

theorem issueCommand_inReset (code arg : Byte) (tag : Half) {s : State} (hs : s.inReset = true) :
    issueCommand code arg tag s = s := by
  rw [issueCommand, if_pos hs]

/-- A full write of the command word issues the command of its code (R146). -/
theorem exec_hostWrite_command (code arg : Byte) (tag : Half) (s : State) :
    exec (.hostWrite 0x0008#14 0xF#4 (word code arg tag)) s = .next (issueCommand code arg tag s) := by
  rw [exec_hostWrite_at locate_command]
  refine congrArg Host.Outcome.next ?_
  by_cases hs : s.inReset = true
  · rw [writeWord_inReset _ _ _ _ hs, issueCommand_inReset code arg tag hs]
  · rw [writeWord_stored _ _ (Bool.eq_false_iff.2 hs) (writeError_command s), storeLoc, storeGlobal, word_code, word_arg,
      word_tag]

theorem afterReports_inReset (i : Instr) {s : State} (hs : s.inReset = true) : afterReports i s = s := by
  unfold afterReports
  split
  · rw [if_pos hs]
  · rw [if_pos hs]
  · rfl

theorem inReset_afterReports (i : Instr) (s : State) : (afterReports i s).inReset = s.inReset := by
  unfold afterReports
  repeat' split
  all_goals simp

theorem resetting_afterReports (i : Instr) (s : State) : (afterReports i s).resetting = s.resetting := by
  unfold afterReports
  repeat' split
  all_goals simp

/-- Owners of commands: they leave the command word, and give a reason with each refusal (R147, R148). -/
def Answers {α : Type} (owner : α → State → State × Answer) : Prop :=
  ∀ a s, (owner a s).1.command = s.command ∧ (owner a s).2 ≠ .refused .none

/-- A command at the Command Port: its argument names a record exactly where it is in range, and the record answers it. -/
def AtPort (i : Instr) (code arg : Byte) (tag : Half) : Prop :=
  ∃ (α : Type) (index : Option α) (owner : α → State → State × Answer),
    (index = none ↔ ¬ ArgInRange i arg) ∧ Answers owner
      ∧ ∀ s, exec i s = .next (portCommand code arg tag index owner (afterReports i s))

theorem indexOf_eq_none_iff {n v : Nat} : indexOf n v = none ↔ ¬ v < n := by
  simp [indexOf]

theorem groupArg_eq_none_iff (arg : Byte) : groupArg arg = none ↔ ¬ (1 ≤ arg.toNat ∧ arg.toNat ≤ 15) := by
  have hzero : arg = 0#8 ↔ arg.toNat = 0 := BitVec.toNat_inj.symm
  unfold groupArg
  split
  · next h => simp [hzero.1 h]
  · next h =>
    rw [hzero] at h
    rw [indexOf_eq_none_iff]
    omega

/-! ### The owners -/

theorem command_mirrorStep {s t : State} (h : MirrorStep s t) : t.command = s.command := by
  obtain ⟨_, _, _, _, _, hframe⟩ := h.frame
  rw [hframe]

theorem command_lineStep {q : SegId} {s t : State} (h : LineStep q s t) : t.command = s.command := by
  obtain ⟨_, _, _, _, _, _, _, hframe⟩ := h.frame
  rw [hframe]

theorem answers_of_mirror {α : Type} {owner : α → State → State × Answer} (h : ∀ a s, MirrorStep s (owner a s).1)
    (hreason : ∀ a s, (owner a s).2 ≠ .refused .none) : Answers owner :=
  fun a s => ⟨command_mirrorStep (h a s), hreason a s⟩

theorem answers_of_line {owner : SegId → State → State × Answer} (h : ∀ q s, LineStep q s (owner q s).1)
    (hreason : ∀ q s, (owner q s).2 ≠ .refused .none) : Answers owner :=
  fun q s => ⟨command_lineStep (h q s), hreason q s⟩

theorem admissionToAnswer_reason (a : Admission) : admissionToAnswer a ≠ .refused .none := by
  cases a <;> exact nofun

theorem demandRefresh_reason (e : EntryId) (s : State) : (demandRefresh e s).2 ≠ .refused .none := by
  unfold demandRefresh
  split
  · exact admissionToAnswer_reason _
  · split <;> exact nofun
  all_goals exact nofun

theorem answers_entryEnable : Answers entryEnable := by
  refine answers_of_mirror entryEnable_step fun e s => ?_
  unfold entryEnable
  repeat' split
  all_goals exact nofun

theorem answers_entryDisable : Answers entryDisable := by
  refine answers_of_mirror entryDisable_step fun e s => ?_
  unfold entryDisable
  split <;> exact nofun

theorem answers_entryRefresh : Answers entryRefresh := by
  refine answers_of_mirror entryRefresh_step fun e s => ?_
  unfold entryRefresh
  split
  · exact nofun
  · split
    · exact nofun
    · exact demandRefresh_reason e s

theorem answers_entryCommit : Answers entryCommit := by
  refine answers_of_mirror entryCommit_step fun e s => ?_
  unfold entryCommit
  split
  · exact nofun
  split
  · exact nofun
  split
  · exact nofun
  split
  · exact nofun
  · exact nofun
  all_goals
    split
    · exact nofun
    · exact admissionToAnswer_reason _

theorem answers_entryAckFault : Answers entryAckFault := answers_of_mirror entryAckFault_step fun _ _ => nofun

theorem answers_groupSweep : Answers groupSweep := by
  refine answers_of_mirror groupSweep_step fun g s => ?_
  unfold groupSweep
  split <;> exact nofun

theorem answers_segmentOnline (sense : SegmentSense) : Answers (segmentOnline sense) := by
  refine answers_of_line (fun q s => (segmentOnline_segStep sense q s).line) fun q s => ?_
  unfold segmentOnline
  repeat' split
  all_goals exact nofun

theorem answers_segmentOffline : Answers segmentOffline := by
  refine answers_of_line (fun q s => (segmentOffline_segStep q s).line) fun q s => ?_
  unfold segmentOffline
  split <;> exact nofun

theorem answers_segmentRestore (sense : RecoverySense) : Answers (segmentRestore sense) := by
  refine answers_of_line (fun q s => (segmentRestore_segStep sense q s).line) fun q s => ?_
  unfold segmentRestore
  split <;> exact nofun

/-- A slot's admission request leaves the command word (R122). -/
theorem answers_slotSubmit : Answers slotSubmit := by
  intro k s
  have hcommand := command_mirrorStep
    (admit_step (slot k s).seg { ref := .direct k, cls := .urgent, tag := none, attempts := 0#3 } s)
  unfold slotSubmit
  split
  · exact ⟨rfl, nofun⟩
  · split
    · exact ⟨rfl, nofun⟩
    · revert hcommand
      split
      · next heq => rw [heq]; exact fun hcommand => ⟨hcommand, nofun⟩
      · next heq => rw [heq]; exact fun hcommand => ⟨hcommand, admissionToAnswer_reason _⟩

theorem answers_slotCancel : Answers slotCancel := by
  intro k s
  unfold slotCancel
  split
  · exact ⟨rfl, nofun⟩
  · exact ⟨rfl, nofun⟩
  · have hcommand := command_mirrorStep (removeJob_step (slot k s).seg (.direct k) s)
    exact ⟨hcommand, nofun⟩
  · split
    · exact ⟨rfl, nofun⟩
    · have hpending := modSlot_line (slot k s).seg k (fun x => { x with cancelPending := true }) s
      exact ⟨command_lineStep (hpending.trans (abortRequest_line _ k _)), nofun⟩

theorem answers_slotRelease : Answers slotRelease := by
  intro k s
  unfold slotRelease
  split <;> exact ⟨rfl, nofun⟩

theorem answers_listenEnable : Answers listenEnable := by
  intro i s
  unfold listenEnable
  repeat' split
  all_goals exact ⟨rfl, nofun⟩

theorem answers_listenDisable : Answers listenDisable := by
  intro i s
  unfold listenDisable
  split <;> exact ⟨rfl, nofun⟩

theorem answers_capturePop : Answers capturePop := by
  intro u s
  unfold capturePop
  split <;> exact ⟨rfl, nofun⟩

theorem answers_captureFlush : Answers captureFlush := fun _ _ => ⟨rfl, nofun⟩

/-- The deliveries of a soft reset leave the command word (R149). -/
theorem nextDeliveries_frame (n : Nat) (s : State) :
    ∃ es gs qs cs sl ls rc rg ns lc fl rp nt rs ud,
      nextDeliveries n s
        = { s with
            entries := es, groups := gs, queues := qs, ctls := cs, slots := sl, listen := ls, receptions := rc, ring := rg
            nextSequence := ns, lostCount := lc, flags := fl, reports := rp, notices := nt, resetting := rs
            undelivered := ud } := by
  induction n generalizing s with
  | zero => exact ⟨_, _, _, _, _, _, _, _, _, _, _, _, _, _, _, rfl⟩
  | succ n ih =>
    obtain ⟨_, _, _, _, _, _, _, _, _, _, _, _, _, _, _, hrest⟩ := ih (nextDelivery s)
    obtain ⟨_, _, _, _, _, _, _, _, _, _, _, _, _, _, _, hnext⟩ := nextDelivery_frame s
    rw [nextDeliveries, hrest, hnext]
    exact ⟨_, _, _, _, _, _, _, _, _, _, _, _, _, _, _, rfl⟩

theorem command_nextDeliveries (n : Nat) (s : State) : (nextDeliveries n s).command = s.command := by
  obtain ⟨_, _, _, _, _, _, _, _, _, _, _, _, _, _, _, hframe⟩ := nextDeliveries_frame n s
  rw [hframe]

theorem answers_softReset (taken : Fin 21) : Answers (softReset taken) :=
  fun _ s => ⟨command_nextDeliveries taken.val { s with resetting := true, undelivered := 20 }, nofun⟩

/-! ### Every command -/

/-- A command whose argument is the index of one of `n` records. -/
theorem atPort_indexed {i : Instr} {code arg : Byte} {tag : Half} {n : Nat} {owner : Fin n → State → State × Answer}
    (hrange : ArgInRange i arg ↔ arg.toNat < n) (howner : Answers owner)
    (hexec : ∀ s, exec i s = .next (portCommand code arg tag (indexOf n arg.toNat) owner (afterReports i s))) :
    AtPort i code arg tag :=
  ⟨_, _, _, by rw [indexOf_eq_none_iff, hrange], howner, hexec⟩

/-- A command that does not use its argument. -/
theorem atPort_whole {i : Instr} {code arg : Byte} {tag : Half} {owner : Unit → State → State × Answer}
    (hrange : ArgInRange i arg) (howner : Answers owner)
    (hexec : ∀ s, exec i s = .next (portCommand code arg tag (some ()) owner (afterReports i s))) :
    AtPort i code arg tag :=
  ⟨_, some (), owner, ⟨nofun, fun h => absurd hrange h⟩, howner, hexec⟩

/-- Each of the seventeen commands is its owner's (Table 9.1). -/
theorem atPort_of_commandOf {i : Instr} {code arg : Byte} {tag : Half} (h : commandOf i = some (code, arg, tag)) :
    AtPort i code arg tag := by
  cases i with
  | entryEnable => cases h; exact atPort_indexed Nat.lt_succ_iff.symm answers_entryEnable fun _ => rfl
  | entryDisable => cases h; exact atPort_indexed Nat.lt_succ_iff.symm answers_entryDisable fun _ => rfl
  | entryRefresh => cases h; exact atPort_indexed Nat.lt_succ_iff.symm answers_entryRefresh fun _ => rfl
  | entryCommit => cases h; exact atPort_indexed Nat.lt_succ_iff.symm answers_entryCommit fun _ => rfl
  | entryAckFault => cases h; exact atPort_indexed Nat.lt_succ_iff.symm answers_entryAckFault fun _ => rfl
  | groupSweep => cases h; exact ⟨_, _, _, groupArg_eq_none_iff _, answers_groupSweep, fun _ => rfl⟩
  | segmentOnline => cases h; exact atPort_indexed Nat.lt_succ_iff.symm (answers_segmentOnline _) fun _ => rfl
  | segmentOffline => cases h; exact atPort_indexed Nat.lt_succ_iff.symm answers_segmentOffline fun _ => rfl
  | segmentRestore => cases h; exact atPort_indexed Nat.lt_succ_iff.symm (answers_segmentRestore _) fun _ => rfl
  | slotSubmit => cases h; exact atPort_indexed Nat.lt_succ_iff.symm answers_slotSubmit fun _ => rfl
  | slotCancel => cases h; exact atPort_indexed Nat.lt_succ_iff.symm answers_slotCancel fun _ => rfl
  | slotRelease => cases h; exact atPort_indexed Nat.lt_succ_iff.symm answers_slotRelease fun _ => rfl
  | listenEnable => cases h; exact atPort_indexed Nat.lt_succ_iff.symm answers_listenEnable fun _ => rfl
  | listenDisable => cases h; exact atPort_indexed Nat.lt_succ_iff.symm answers_listenDisable fun _ => rfl
  | capturePop => cases h; exact atPort_whole trivial answers_capturePop fun _ => rfl
  | captureFlush => cases h; exact atPort_whole trivial answers_captureFlush fun _ => rfl
  | softReset => cases h; exact atPort_whole trivial (answers_softReset _) fun _ => rfl
  | _ => cases h

/-- While RESETn is asserted a command changes nothing (R160). -/
theorem exec_command_inReset {i : Instr} {code arg : Byte} {tag : Half} (h : commandOf i = some (code, arg, tag))
    {s : State} (hs : s.inReset = true) : exec i s = .next s := by
  obtain ⟨_, index, owner, -, -, hexec⟩ := atPort_of_commandOf h
  rw [hexec, afterReports_inReset i hs, portCommand_inReset code arg tag index owner hs]

/-! ## The rows that are writes of a word -/

/-- A full write of the command word finds the command of its code, after what that command tells of the lines. -/
theorem issueCommand_of_commandOf {i : Instr} {code arg : Byte} {tag : Half} (h : commandOf i = some (code, arg, tag))
    (honline : code ≠ 0x20#8) (hrestore : code ≠ 0x22#8)
    (htaken : ∀ a t reports taken, i = .softReset a t reports taken → taken = 20) {s : State} (hs : s.inReset = false) :
    .next (issueCommand code arg tag (afterReports i s)) = exec i s := by
  rw [issueCommand, if_neg (by rw [inReset_afterReports, hs]; exact Bool.false_ne_true)]
  cases i with
  | segmentOnline => cases h; exact absurd rfl honline
  | segmentRestore => cases h; exact absurd rfl hrestore
  | softReset a t reports taken => cases h; rw [htaken _ _ _ _ rfl]; rfl
  | entryEnable | entryDisable | entryRefresh | entryCommit | entryAckFault | groupSweep | segmentOffline | slotSubmit
  | slotCancel | slotRelease | listenEnable | listenDisable | capturePop | captureFlush => cases h; rfl
  | _ => cases h

theorem exec_hostWrite_commandOf {i : Instr} {code arg : Byte} {tag : Half} (h : commandOf i = some (code, arg, tag))
    (honline : code ≠ 0x20#8) (hrestore : code ≠ 0x22#8)
    (htaken : ∀ a t reports taken, i = .softReset a t reports taken → taken = 20) (s : State) :
    exec (.hostWrite 0x0008#14 0xF#4 (word code arg tag)) (afterReports i s) = exec i s := by
  rw [exec_hostWrite_command]
  by_cases hs : s.inReset = true
  · rw [exec_command_inReset h hs, afterReports_inReset i hs, issueCommand_inReset code arg tag hs]
  · exact issueCommand_of_commandOf h honline hrestore htaken (Bool.eq_false_iff.2 hs)

/-- The two commands that sense lines take a free value of them, the index of the next one raised by 1 (log entry 3). -/
theorem exec_hostWrite_segmentOnline (arg : Byte) (tag : Half) {s : State} (hs : s.inReset = false) :
    exec (.hostWrite 0x0008#14 0xF#4 (word 0x20#8 arg tag)) s
      = exec (.segmentOnline arg tag (Config.freeSense s.freeIndex)) { s with freeIndex := s.freeIndex + 1 } := by
  rw [exec_hostWrite_command, issueCommand, if_neg (by rw [hs]; exact Bool.false_ne_true)]
  rfl

theorem exec_hostWrite_segmentRestore (arg : Byte) (tag : Half) {s : State} (hs : s.inReset = false) :
    exec (.hostWrite 0x0008#14 0xF#4 (word 0x22#8 arg tag)) s
      = exec (.segmentRestore arg tag (Config.freeSense s.freeIndex).recovery)
          { s with freeIndex := s.freeIndex + 1 } := by
  rw [exec_hostWrite_command, issueCommand, if_neg (by rw [hs]; exact Bool.false_ne_true)]
  rfl

/-- Settles O9: each row's address selects its word, and the command word is the command of its code. -/
theorem rowsAreWritesOfTheirWords : Obligations.RowsAreWritesOfTheirWords := by
  refine ⟨fun e w be d s => (exec_hostWrite_at (locate_stagingAddr e w) be d s).symm,
    fun r be d s => (exec_hostWrite_at (locate_groupPeriodAddr r) be d s).symm,
    fun be d s => ⟨(exec_hostWrite_at locate_flagsAddr be d s).symm, (exec_hostWrite_at locate_enablesAddr be d s).symm,
      (exec_hostWrite_at locate_accessRecordAddr be d s).symm, (exec_hostWrite_at locate_accessCountAddr be d s).symm⟩,
    fun i code arg tag s h honline hrestore htaken => exec_hostWrite_commandOf h honline hrestore htaken s,
    fun arg tag s hs => ?_⟩
  exact ⟨Config.freeSense s.freeIndex, exec_hostWrite_segmentOnline arg tag hs, exec_hostWrite_segmentRestore arg tag hs⟩

/-! ## The checks of the Command Port (R147) -/

theorem mem_knownCodes_of_toNat {code : Byte} (h : code.toNat ∈ knownCodes.map BitVec.toNat) : code ∈ knownCodes := by
  obtain ⟨known, hknown, heq⟩ := List.mem_map.1 h
  rwa [← BitVec.eq_of_toNat_eq heq]

/-- A code that is not one of the seventeen is refused before every other check. -/
theorem exec_unknownCommand {code : Byte} (hcode : code ∉ knownCodes) (arg : Byte) (tag : Half) {s : State}
    (hs : s.inReset = false) : exec (.unknownCommand code arg tag) s = .next (refused code arg tag .unknownCommand s) := by
  refine congrArg Host.Outcome.next ?_
  have hrefuse : refuseUnknown code arg tag s = refused code arg tag .unknownCommand s := by
    rw [refuseUnknown, commandWord_eq]
    rfl
  rw [← hrefuse, issueCommand, if_neg (by rw [hs]; exact Bool.false_ne_true)]
  split
  case h_18 => rfl
  all_goals
    next h => exact absurd (mem_knownCodes_of_toNat (by rw [h]; decide)) hcode

/-- The result word takes the code, the tag and the owner's answer, and the command word stays (R146, R148). -/
theorem answerCommand_answered (code : Byte) (tag : Half) {a : Answer} (ha : a ≠ .refused .none) (s : State) :
    (answerCommand code tag a s).command = s.command ∧ (answerCommand code tag a s).result.code = code
      ∧ (answerCommand code tag a s).result.tag = tag
      ∧ ((answerCommand code tag a s).result.outcome = .accepted ∧ (answerCommand code tag a s).result.reason = .none
        ∨ (answerCommand code tag a s).result.outcome = .refused
          ∧ (answerCommand code tag a s).result.reason ≠ .none) := by
  cases a with
  | accepted => exact ⟨rfl, rfl, rfl, .inl ⟨rfl, rfl⟩⟩
  | refused reason => exact ⟨rfl, rfl, rfl, .inr ⟨rfl, fun hnone => ha (congrArg _ hnone)⟩⟩

section
variable {i : Instr} {code arg : Byte} {tag : Half} {s : State} (h : commandOf i = some (code, arg, tag))
  (hs : s.inReset = false)
include h hs

theorem exec_command_resetting (hr : s.resetting = true) :
    exec i s = .next (refused code arg tag .resetting (afterReports i s)) := by
  obtain ⟨_, index, owner, -, -, hexec⟩ := atPort_of_commandOf h
  rw [hexec, portCommand_resetting code arg tag index owner (by rw [inReset_afterReports, hs])
    (by rw [resetting_afterReports, hr])]
  rfl

theorem exec_command_badIndex (hr : s.resetting = false) (harg : ¬ ArgInRange i arg) :
    exec i s = .next (refused code arg tag .badIndex (afterReports i s)) := by
  obtain ⟨_, index, owner, hindex, -, hexec⟩ := atPort_of_commandOf h
  rw [hexec, hindex.2 harg, portCommand_badIndex code arg tag owner (by rw [inReset_afterReports, hs])
    (by rw [resetting_afterReports, hr])]
  rfl

/-- A command that passes the checks keeps its word, and its owner's answer stands in the result word (R146, R148). -/
theorem exec_command_answered (hr : s.resetting = false) (harg : ArgInRange i arg) :
    ∃ t, exec i s = .next t ∧ t.command = word code arg tag ∧ t.result.code = code ∧ t.result.tag = tag
      ∧ (t.result.outcome = .accepted ∧ t.result.reason = .none
        ∨ t.result.outcome = .refused ∧ t.result.reason ≠ .none) := by
  obtain ⟨_, index, owner, hindex, howner, hexec⟩ := atPort_of_commandOf h
  obtain ⟨a, ha⟩ := Option.ne_none_iff_exists'.1 (mt hindex.1 (not_not_intro harg))
  obtain ⟨hcommand, hreason⟩ := howner a (issued code arg tag (afterReports i s))
  have hport := portCommand_ready code arg tag a owner (s := afterReports i s) (by rw [inReset_afterReports, hs])
    (by rw [resetting_afterReports, hr])
  obtain ⟨hword, hrest⟩ := answerCommand_answered code tag hreason (owner a (issued code arg tag (afterReports i s))).1
  exact ⟨_, by rw [hexec, ha, hport]; rfl, hword.trans hcommand, hrest⟩

end

/-- Settles O13: the three checks in their order, then the owner's answer. -/
theorem commandPortChecks : Obligations.CommandPortChecks := fun _ _ arg tag _ hs =>
  ⟨fun hcode => exec_unknownCommand hcode arg tag hs, fun h hr => exec_command_resetting h hs hr,
    fun h hr harg => exec_command_badIndex h hs hr harg, fun h hr harg => exec_command_answered h hs hr harg⟩

end Sys2Proof.Proofs
end

section
/-! The Event Unit (R152, R153): writes of the flag word and of the enable word, INTn, and the thirteen set requests. -/

namespace Sys2Proof.Proofs

open Sys2Proof.Machine Sys2Proof.Safety Sys2Proof.Spec

/-! ## Writes of the flags and the enables -/

/-- The flag word: a full write, taken while RESETTING too (R150). -/
theorem writeError_flags (be : BitVec 4) (s : State) :
    writeError (some (.global .flags)) be s = if be ≠ 0xF#4 then some .partialWrite else none := by
  simp [writeError, Loc.kind, GlobalWord.kind, takenWhileResetting, locked, readModeStaging]

/-- The enable word: a full write, taken outside RESETTING only. -/
theorem writeError_enables (be : BitVec 4) (s : State) :
    writeError (some (.global .enables)) be s
      = if be ≠ 0xF#4 then some .partialWrite else if s.resetting = true then some .resetting else none := by
  simp [writeError, Loc.kind, GlobalWord.kind, takenWhileResetting, locked, readModeStaging]

section
variable {be : BitVec 4} (data : Word) {s : State} (hs : s.inReset = false)
include hs

theorem exec_eventFlagWrite_full (hbe : be = 0xF#4) :
    exec (.eventFlagWrite be data) s = .next { s with flags := s.flags &&& ~~~ data.extractLsb' 0 13 } :=
  congrArg Host.Outcome.next (writeWord_stored _ data hs (by rw [writeError_flags, if_neg (not_not_intro hbe)]))

theorem exec_eventFlagWrite_partial (hbe : be ≠ 0xF#4) :
    exec (.eventFlagWrite be data) s = .next (errorTaken 0x0010#14 true .partialWrite s) :=
  congrArg Host.Outcome.next (writeWord_error data hs (by rw [writeError_flags, if_pos hbe]))

theorem exec_eventEnableWrite_full (hbe : be = 0xF#4) (hr : s.resetting = false) :
    exec (.eventEnableWrite be data) s = .next { s with enables := data.extractLsb' 0 13 } :=
  congrArg Host.Outcome.next
    (writeWord_stored _ data hs (by rw [writeError_enables, if_neg (not_not_intro hbe), hr]; rfl))

theorem exec_eventEnableWrite_partial (hbe : be ≠ 0xF#4) :
    exec (.eventEnableWrite be data) s = .next (errorTaken 0x0014#14 true .partialWrite s) :=
  congrArg Host.Outcome.next (writeWord_error data hs (by rw [writeError_enables, if_pos hbe]))

theorem exec_eventEnableWrite_resetting (hbe : be = 0xF#4) (hr : s.resetting = true) :
    exec (.eventEnableWrite be data) s = .next (errorTaken 0x0014#14 true .resetting s) :=
  congrArg Host.Outcome.next
    (writeWord_error data hs (by rw [writeError_enables, if_neg (not_not_intro hbe), if_pos hr]))

end

/-- A flag written 1 is cleared, every other flag stays (R152). -/
theorem getLsbD_clearedFlags (flags : BitVec 13) (data : Word) {i : Nat} (hi : i < 13) :
    (flags &&& ~~~ data.extractLsb' 0 13).getLsbD i = (flags.getLsbD i && !data.getLsbD i) := by
  simp [hi]

/-! ## INTn and set requests -/

/-- INTn looks at each flag beside its enable (R153). -/
theorem intAsserted_iff (s : State) :
    intAsserted s = true ↔ ∃ i, i < 13 ∧ s.flags.getLsbD i = true ∧ s.enables.getLsbD i = true := by
  have hzero : s.flags &&& s.enables = 0#13 ↔ ∀ i, i < 13 → (s.flags.getLsbD i && s.enables.getLsbD i) = false := by
    constructor
    · intro h i _
      rw [← BitVec.getLsbD_and, h, BitVec.getLsbD_zero]
    · intro h
      refine BitVec.eq_of_getLsbD_eq fun i hi => ?_
      rw [BitVec.getLsbD_and, h i hi, BitVec.getLsbD_zero]
  rw [intAsserted, bne_iff_ne, ne_eq, hzero]
  simp

/-- A set request notes its event's bit (R152). -/
theorem raise_eq_noted (e : Event) (s : State) : raise e s = noted (1#13 <<< e.bit) s := rfl

/-- Settles O11: the row of Table 10.1 decides each write; INTn bit by bit; each event by its bit. -/
theorem flagsEnablesAndInterruptOutput : Obligations.FlagsEnablesAndInterruptOutput := by
  intro be data s hs
  refine ⟨fun hbe => ⟨_, exec_eventFlagWrite_full data hs hbe, fun _ hi => getLsbD_clearedFlags _ data hi⟩,
    exec_eventFlagWrite_partial data hs, exec_eventEnableWrite_full data hs, exec_eventEnableWrite_partial data hs,
    exec_eventEnableWrite_resetting data hs, intAsserted_iff s, ?_⟩
  exact ⟨raise_eq_noted .entryFault s, raise_eq_noted .writeDone s, raise_eq_noted .verifyMismatch s,
    raise_eq_noted .groupPublished s, raise_eq_noted .groupTorn s, raise_eq_noted .slotDone s,
    raise_eq_noted .captureArrived s, raise_eq_noted .captureLost s, raise_eq_noted .queuePressure s,
    raise_eq_noted .segmentQuarantined s, raise_eq_noted .segmentStopped s, raise_eq_noted .accessError s,
    raise_eq_noted .resetDone s⟩

end Sys2Proof.Proofs
end

section
/-! The deliveries of a soft reset (R149 to R151), each in the words of the statements: what the blocks' own reset does, how the
deliveries follow one another, and what one that is taken makes of its block. -/

namespace Sys2Proof.Proofs

open Sys2Proof.Machine Sys2Proof.Safety Sys2Proof.Spec

/-! ## One delivery -/

/-- Delivery 1 at a controller (R116). -/
theorem softResetCtl_eq_jobDropped (q : SegId) (s : State) :
    softResetCtl (frameElements q s) (frameSoFar q noTraffic s).passed (ctl q s) = jobDropped q s := by
  rw [frameSoFar_eq_runOn, frameElements_eq_partFrame]
  unfold softResetCtl jobDropped requestEarlyEnd endNext
  dsimp only
  cases (ctl q s).own with
  | frame t =>
    dsimp only
    cases (ctl q s).earlyEnd <;> rfl
  | stopAttempt t => rfl
  | quiet => rfl
  | startWait t => rfl

/-- The slot whose DIRECT job is dropped becomes FREE (R116, R129). -/
theorem freeActiveSlot_eq (q : SegId) (s : State) :
    freeActiveSlot q s
      = { s with
          slots := tabulate 8 fun k =>
            if (ctl q s).active.map (fun a => a.job.ref) = some (.direct k) then Slot.reset else slot k s } := by
  have hkept : s = { s with slots := tabulate 8 fun k => slot k s } := by
    rw [← show s.slots = tabulate 8 fun k => slot k s from getAt_ext fun k => (getAt_tabulate 8 _ k).symm]
  unfold freeActiveSlot
  cases (ctl q s).active with
  | none => simpa using hkept
  | some a =>
    cases href : a.job.ref with
    | direct k =>
      have hslots : putAt s.slots k Slot.reset
          = tabulate 8 fun j => if (some (JobRef.direct k) : Option JobRef) = some (.direct j) then Slot.reset else slot j s := by
        refine getAt_ext fun j => ?_
        rw [getAt_tabulate]
        by_cases hj : j = k
        · rw [hj, getAt_putAt_same, if_pos rfl]
        · rw [getAt_putAt_ne _ _ hj, if_neg fun h => hj (by cases h; rfl)]
          rfl
      simp only [href, Option.map_some, modSlot, hslots]
    | refresh e => simpa [href] using hkept
    | write e => simpa [href] using hkept

/-- What delivery 1 does at a controller, its reception and the slot of its job, the queue apart (R116). -/
def controllerReset (q : SegId) (s : State) : State :=
  { s with
    ctls := putAt s.ctls q (jobDropped q s), receptions := putAt s.receptions q none
    slots := tabulate 8 fun k =>
      if (ctl q s).active.map (fun a => a.job.ref) = some (.direct k) then Slot.reset else slot k s }

/-- A controller that is OFFLINE at once has its queue emptied in the same event (R116). -/
theorem resetController_eq (q : SegId) (s : State) :
    resetController q s
      = if (jobDropped q s).state = .offline then emptied q (controllerReset q s) else controllerReset q s := by
  have hreset : cutReception q (modCtl q (softResetCtl (frameElements q s) (frameSoFar q noTraffic s).passed)
      (freeActiveSlot q s)) = controllerReset q s := by
    rw [modCtl, ctl_freeActiveSlot, softResetCtl_eq_jobDropped, freeActiveSlot_eq]
    rfl
  have hctl : ctl q (controllerReset q s) = jobDropped q s := getAt_putAt_same _ _ _
  unfold resetController
  dsimp only
  rw [hreset, hctl, emptyQueue_eq_emptied]

theorem resetTaken_controller (q : SegId) (s : State) :
    resetTaken (.controller q) s = resetController q { s with undelivered := s.undelivered - 1 } := by
  rw [resetController_eq]
  rfl

theorem softResetEntry_eq (x : Entry) :
    softResetEntry x
      = { x with
          enable := .disabled, validity := .none, refresh := .idle, write := .none, writeOvertaken := false
          refreshAgain := false, writeAgain := false, faultMark := false, held := Vector.replicate 32 0#8
          dueTime := none } := by
  rw [softResetEntry, fill_nil]

theorem tabulate_const {α : Type} (n : Nat) (x : α) : (tabulate n fun _ => x) = Vector.replicate n x :=
  getAt_ext fun i => by simp

/-- Every delivery but the last leaves others to be taken, so that RESETTING does not end with it (R151). -/
theorem checkResettingEnd_of_left {s : State} (h : s.undelivered ≠ 0) : checkResettingEnd s = s := by
  rw [checkResettingEnd, if_neg fun hend => h hend.2.1]

/-- A delivery in the words of R149 to R151, with the end of RESETTING after the last. -/
theorem resetTaken_eq {d : Delivery} {s : State} (hr : s.resetting = true)
    (hlast : d ≠ .events → s.undelivered - 1 ≠ 0) :
    checkResettingEnd (takeDelivery d { s with undelivered := s.undelivered - 1 }) = resetTaken d s := by
  have hframe := takeDelivery_frame d { s with undelivered := s.undelivered - 1 }
  by_cases hd : d = .events
  · rw [hd]
    exact checkResettingEnd_eq_resetDone hr
  · have hleft : (takeDelivery d { s with undelivered := s.undelivered - 1 }).undelivered ≠ 0 := by
      obtain ⟨_, _, _, _, _, _, _, _, _, _, _, _, _, hframe⟩ := hframe
      rw [hframe]
      exact hlast hd
    rw [checkResettingEnd_of_left hleft]
    cases d with
    | controller q => exact (resetTaken_controller q s).symm
    | queue q => exact emptyQueue_eq_emptied q _
    | mirrorAndScheduler =>
      show resetMirror _ = _
      unfold resetMirror
      simp only [softResetEntry_eq]
      rfl
    | slots =>
      exact congrArg (fun slots => { s with undelivered := s.undelivered - 1, slots := slots }) (tabulate_const 8 Slot.reset)
    | listen =>
      show resetListen _ = _
      unfold resetListen
      rw [tabulate_const]
      rfl
    | events => exact absurd rfl hd

/-! ## The deliveries one after the other -/

/-- The deliveries that are left, in the order of R149: the last is the Event Unit's. -/
theorem deliveriesLeft_eq_append {s : State} (h : s.undelivered ≠ 0) :
    ∃ before, deliveriesLeft s = before ++ [.events] := by
  have hall : ∀ u : Fin 21, u ≠ 0 →
      resetOrder.drop (20 - u.val) = (resetOrder.drop (20 - u.val)).dropLast ++ [Delivery.events] := by decide
  exact ⟨_, hall _ h⟩

theorem length_deliveriesLeft (s : State) : (deliveriesLeft s).length = s.undelivered.val := by
  have hlength : resetOrder.length = 20 := by decide
  have hlt := s.undelivered.isLt
  rw [deliveriesLeft, List.length_drop, hlength]
  omega

theorem undelivered_resetTaken (d : Delivery) (s : State) : (resetTaken d s).undelivered = s.undelivered - 1 := by
  cases d with
  | controller q => rw [resetTaken_controller, (resetController_line q _).undelivered]
  | events =>
    unfold resetTaken resetDone
    dsimp only
    split <;> rfl
  | _ => rfl

theorem deliveriesLeft_resetTaken {s : State} {d : Delivery} {rest : List Delivery} (h : deliveriesLeft s = d :: rest) :
    deliveriesLeft (resetTaken d s) = rest := by
  rw [← (deliveriesLeft_next h).1, deliveriesLeft, undelivered_resetTaken]
  rfl

/-- RESETTING lasts while deliveries are left (R151). -/
theorem resetting_resetTaken {s : State} {d : Delivery} {rest : List Delivery} (h : deliveriesLeft s = d :: rest)
    (hrest : rest ≠ []) : (resetTaken d s).resetting = s.resetting := by
  have hleft : s.undelivered - 1 ≠ 0 := fun hnone => by
    rw [← (deliveriesLeft_next h).1] at hrest
    exact hrest (deliveriesLeft_nil.2 hnone)
  cases d with
  | controller q =>
    rw [resetTaken_controller]
    exact (resetController_line q { s with undelivered := s.undelivered - 1 }).reset.resolve_right hleft
  | events =>
    unfold resetTaken resetDone
    dsimp only
    rw [if_neg fun hend => hleft hend.1]
  | _ => rfl

/-- The next delivery is the first that is left (R149). -/
theorem nextDelivery_eq_resetTaken {s : State} {d : Delivery} {rest : List Delivery} (hr : s.resetting = true)
    (h : deliveriesLeft s = d :: rest) : nextDelivery s = resetTaken d s := by
  rw [nextDelivery_eq hr h]
  refine resetTaken_eq hr fun hd hnone => hd ?_
  have hlast : rest = [] := (deliveriesLeft_next h).1.symm.trans (deliveriesLeft_nil.2 hnone)
  have hsome : s.undelivered ≠ 0 := fun hzero => by
    rw [deliveriesLeft_nil.2 hzero] at h
    cases h
  obtain ⟨before, hbefore⟩ := deliveriesLeft_eq_append hsome
  rw [h, hlast] at hbefore
  simpa using congrArg List.getLast? hbefore

/-- The deliveries listed, taken one after the other. -/
def delivered (ds : List Delivery) (s : State) : State := ds.foldl (fun t d => resetTaken d t) s

theorem nextDeliveries_eq_delivered (ds : List Delivery) {s : State} (hr : ds ≠ [] → s.resetting = true)
    (h : deliveriesLeft s = ds) : nextDeliveries ds.length s = delivered ds s := by
  induction ds generalizing s with
  | nil => rfl
  | cons d rest ih =>
    have hresetting := hr (List.cons_ne_nil d rest)
    have hrest := ih (fun hne => (resetting_resetTaken h hne).trans hresetting) (deliveriesLeft_resetTaken h)
    rw [List.length_cons, nextDeliveries, nextDelivery_eq_resetTaken hresetting h, hrest]
    rfl

/-- All deliveries that are left, and the Event Unit's last (R149). -/
theorem nextDeliveries_all {s : State} (hr : s.resetting = true) :
    nextDeliveries s.undelivered.val s = delivered (deliveriesLeft s) s := by
  rw [← length_deliveriesLeft]
  exact nextDeliveries_eq_delivered _ (fun _ => hr) rfl

theorem delivered_append (ds es : List Delivery) (s : State) : delivered (ds ++ es) s = delivered es (delivered ds s) :=
  List.foldl_append

theorem deliveriesLeft_delivered {ds rest : List Delivery} {s : State} (h : deliveriesLeft s = ds ++ rest) :
    deliveriesLeft (delivered ds s) = rest := by
  induction ds generalizing s with
  | nil => exact h
  | cons d ds ih => exact ih (deliveriesLeft_resetTaken h)

/-! ## What the deliveries make of a block -/

/-- A block that its own delivery resets, and that every other delivery leaves or resets too, is reset once they are taken. -/
theorem delivered_reaches {α : Type} {v : State → α} {reset : α → α → Prop} {d : Delivery}
    (htrans : ∀ x y z, reset x y → reset y z → reset x z)
    (hkept : ∀ d s, v (resetTaken d s) = v s ∨ reset (v s) (v (resetTaken d s)))
    (htaken : ∀ s, reset (v s) (v (resetTaken d s))) {ds : List Delivery} (hd : d ∈ ds) (s : State) :
    reset (v s) (v (delivered ds s)) := by
  have hlater : ∀ (ds : List Delivery) (s t : State), reset (v s) (v t) → reset (v s) (v (delivered ds t)) := by
    intro ds s
    induction ds with
    | nil => exact fun _ h => h
    | cons d ds ih =>
      intro t h
      refine ih _ ?_
      rcases hkept d t with hsame | hagain
      · rw [hsame]; exact h
      · exact htrans _ _ _ h hagain
  induction ds generalizing s with
  | nil => cases hd
  | cons d' ds ih =>
    rcases List.mem_cons.1 hd with rfl | hmem
    · exact hlater ds s _ (htaken s)
    · have hrest := ih hmem (resetTaken d' s)
      rcases hkept d' s with hsame | hagain
      · rw [hsame] at hrest; exact hrest
      · exact htrans _ _ _ hagain hrest

/-- A block with one value after a soft reset. -/
theorem delivered_const {α : Type} {v : State → α} {x : α} {d : Delivery}
    (hkept : ∀ d s, v (resetTaken d s) = v s ∨ v (resetTaken d s) = x) (htaken : ∀ s, v (resetTaken d s) = x)
    {ds : List Delivery} (hd : d ∈ ds) (s : State) : v (delivered ds s) = x :=
  delivered_reaches (reset := fun _ y => y = x) (fun _ _ _ _ h => h) hkept htaken hd s

/-- A block that keeps a part of its value. -/
theorem delivered_map {α : Type} {v : State → α} {f : α → α} {d : Delivery} (hagain : ∀ x, f (f x) = f x)
    (hkept : ∀ d s, v (resetTaken d s) = v s ∨ v (resetTaken d s) = f (v s))
    (htaken : ∀ s, v (resetTaken d s) = f (v s)) {ds : List Delivery} (hd : d ∈ ds) (s : State) :
    v (delivered ds s) = f (v s) :=
  delivered_reaches (reset := fun x y => y = f x) (fun x _ _ hy hz => by rw [hz, hy, hagain]) hkept htaken hd s

end Sys2Proof.Proofs
end

section
/-! A soft reset as a whole (R149 to R151): the value each block has once all deliveries are taken, the end of RESETTING, the
access errors beside it, and the command. -/

namespace Sys2Proof.Proofs

open Sys2Proof.Machine Sys2Proof.Safety Sys2Proof.Spec

/-! ## What a delivery leaves of the other blocks -/

/-- Deliveries to other blocks than the Mirror Table, the Refresh Scheduler and the Listen Unit. -/
theorem resetTaken_frame {d : Delivery} (hmirror : d ≠ .mirrorAndScheduler) (hlisten : d ≠ .listen) (s : State) :
    ∃ ud qs cs sl rc fl rs,
      resetTaken d s
        = { s with
            undelivered := ud, queues := qs, ctls := cs, slots := sl, receptions := rc, flags := fl, resetting := rs } := by
  cases d with
  | controller q =>
    unfold resetTaken
    dsimp only
    split <;> exact ⟨_, _, _, _, _, _, _, rfl⟩
  | events =>
    unfold resetTaken resetDone
    dsimp only
    split <;> exact ⟨_, _, _, _, _, _, _, rfl⟩
  | queue q => exact ⟨_, _, _, _, _, _, _, rfl⟩
  | slots => exact ⟨_, _, _, _, _, _, _, rfl⟩
  | mirrorAndScheduler => exact absurd rfl hmirror
  | listen => exact absurd rfl hlisten

/-- The part of the Mirror Table and the Refresh Scheduler, with what is on its way to them. -/
def mirrorBlock (s : State) : Vector Entry 128 × Vector Group 15 × List Report × List Notice :=
  (s.entries, s.groups, s.reports, s.notices)

/-- That part after its delivery (R26, R47; log entry 8). -/
def mirrorAfter (b : Vector Entry 128 × Vector Group 15 × List Report × List Notice) :
    Vector Entry 128 × Vector Group 15 × List Report × List Notice :=
  (tabulate 128 fun e => softResetEntry (getAt b.1 e), tabulate 15 fun g => softResetGroup (getAt b.2.1 g), [], [])

theorem mirrorAfter_mirrorAfter (b : Vector Entry 128 × Vector Group 15 × List Report × List Notice) :
    mirrorAfter (mirrorAfter b) = mirrorAfter b := by
  have hentries : (tabulate 128 fun e => softResetEntry (getAt (mirrorAfter b).1 e)) = (mirrorAfter b).1 :=
    getAt_ext fun e => by rw [mirrorAfter, getAt_tabulate, getAt_tabulate]; rfl
  have hgroups : (tabulate 15 fun g => softResetGroup (getAt (mirrorAfter b).2.1 g)) = (mirrorAfter b).2.1 :=
    getAt_ext fun g => by rw [mirrorAfter, getAt_tabulate, getAt_tabulate]; rfl
  rw [mirrorAfter, hentries, hgroups]
  rfl

/-- The part of the Listen Unit that no other block's delivery touches. -/
def listenBlock (s : State) : Vector ListenEntry 16 × List CaptureRecord × Half × Half :=
  (s.listen, s.ring, s.nextSequence, s.lostCount)

/-- That part after its delivery (R144). -/
def listenAfter (b : Vector ListenEntry 16 × List CaptureRecord × Half × Half) :
    Vector ListenEntry 16 × List CaptureRecord × Half × Half :=
  (tabulate 16 fun i => softResetListen (getAt b.1 i), [], 0#16, 0#16)

theorem listenAfter_listenAfter (b : Vector ListenEntry 16 × List CaptureRecord × Half × Half) :
    listenAfter (listenAfter b) = listenAfter b := by
  have hentries : (tabulate 16 fun i => softResetListen (getAt (listenAfter b).1 i)) = (listenAfter b).1 :=
    getAt_ext fun i => by rw [listenAfter, getAt_tabulate, getAt_tabulate]; rfl
  rw [listenAfter, hentries]
  rfl

theorem mirrorBlock_taken (s : State) : mirrorBlock (resetTaken .mirrorAndScheduler s) = mirrorAfter (mirrorBlock s) := by
  unfold mirrorAfter
  simp only [softResetEntry_eq]
  rfl

theorem mirrorBlock_resetTaken (d : Delivery) (s : State) :
    mirrorBlock (resetTaken d s) = mirrorBlock s ∨ mirrorBlock (resetTaken d s) = mirrorAfter (mirrorBlock s) := by
  by_cases hmirror : d = .mirrorAndScheduler
  · exact .inr (hmirror ▸ mirrorBlock_taken s)
  · by_cases hlisten : d = .listen
    · exact .inl (hlisten ▸ rfl)
    · obtain ⟨_, _, _, _, _, _, _, hframe⟩ := resetTaken_frame hmirror hlisten s
      exact .inl (by rw [hframe]; rfl)

theorem listenBlock_resetTaken (d : Delivery) (s : State) :
    listenBlock (resetTaken d s) = listenBlock s ∨ listenBlock (resetTaken d s) = listenAfter (listenBlock s) := by
  by_cases hmirror : d = .mirrorAndScheduler
  · exact .inl (hmirror ▸ rfl)
  · by_cases hlisten : d = .listen
    · exact .inr (hlisten ▸ rfl)
    · obtain ⟨_, _, _, _, _, _, _, hframe⟩ := resetTaken_frame hmirror hlisten s
      exact .inl (by rw [hframe]; rfl)

/-! ## Controllers, queues, receptions and slots -/

theorem ctl_emptied (q p : SegId) (s : State) : ctl p (emptied q s) = ctl p s := rfl

theorem ctl_controllerReset (q p : SegId) (s : State) :
    ctl p (controllerReset q s) = if p = q then jobDropped q s else ctl p s := by
  split
  · next h => exact h ▸ getAt_putAt_same _ _ _
  · next h => exact getAt_putAt_ne _ _ h

theorem ctl_resetTaken_controller (q p : SegId) (s : State) :
    ctl p (resetTaken (.controller q) s) = if p = q then jobDropped q s else ctl p s := by
  rw [resetTaken_controller, resetController_eq]
  split <;> exact ctl_controllerReset q p { s with undelivered := s.undelivered - 1 }

theorem ctl_resetTaken {d : Delivery} {q : SegId} (hd : d ≠ .controller q) (s : State) :
    ctl q (resetTaken d s) = ctl q s := by
  cases d with
  | controller p => rw [ctl_resetTaken_controller, if_neg fun h => hd (by rw [h])]
  | events =>
    unfold resetTaken resetDone
    dsimp only
    split <;> rfl
  | _ => rfl

theorem onWire_iff (c : Controller) : onWire c ↔ ownOnWire c.own = true := (ownOnWire_iff c.own).symm

theorem not_onWire_offline (c : Controller) : ¬ onWire (offline c) := fun h => nomatch (onWire_iff _).1 h

/-- A controller a soft reset has reached, by what was on the wire (R116). -/
structure Halted (c d : Controller) : Prop where
  quiet : ¬ onWire c → d = offline c
  wire : onWire c → d.state = .stopping ∧ d.active = none ∧ d.own = c.own ∧ d.cfg = c.cfg ∧ d.lastResult = c.lastResult
    ∧ d.streak = c.streak

theorem Halted.trans {c d e : Controller} (h : Halted c d) (k : Halted d e) : Halted c e := by
  refine ⟨fun hc => ?_, fun hc => ?_⟩
  · have hd := h.quiet hc
    rw [k.quiet (by rw [hd]; exact not_onWire_offline c), hd]
    rfl
  · obtain ⟨-, -, hown, hcfg, hlast, hstreak⟩ := h.wire hc
    have hd : onWire d := by
      rw [onWire, hown]
      exact hc
    obtain ⟨kstate, kactive, kown, kcfg, klast, kstreak⟩ := k.wire hd
    exact ⟨kstate, kactive, kown.trans hown, kcfg.trans hcfg, klast.trans hlast, kstreak.trans hstreak⟩

theorem jobDropped_halted (q : SegId) (s : State) : Halted (ctl q s) (jobDropped q s) := by
  have hwire := onWire_iff (ctl q s)
  unfold jobDropped
  dsimp only
  cases hown : (ctl q s).own with
  | frame t =>
    rw [hown] at hwire
    exact ⟨fun h => absurd (hwire.2 rfl) h, fun _ => ⟨rfl, rfl, hown.symm, rfl, rfl, rfl⟩⟩
  | stopAttempt t =>
    rw [hown] at hwire
    exact ⟨fun h => absurd (hwire.2 rfl) h, fun _ => ⟨rfl, rfl, hown.symm, rfl, rfl, rfl⟩⟩
  | quiet =>
    rw [hown] at hwire
    exact ⟨fun _ => rfl, fun h => nomatch hwire.1 h⟩
  | startWait w =>
    rw [hown] at hwire
    exact ⟨fun _ => rfl, fun h => nomatch hwire.1 h⟩

theorem queue_emptied (q p : SegId) (s : State) :
    queue p (emptied q s) = if p = q then SegQueue.reset else queue p s := by
  split
  · next h => exact h ▸ getAt_putAt_same _ _ _
  · next h => exact getAt_putAt_ne _ _ h

theorem queue_resetTaken (d : Delivery) (q : SegId) (s : State) :
    queue q (resetTaken d s) = queue q s ∨ queue q (resetTaken d s) = SegQueue.reset := by
  have hemptied : ∀ (p : SegId) (t : State), queue q t = queue q s →
      queue q (emptied p t) = queue q s ∨ queue q (emptied p t) = SegQueue.reset := by
    intro p t ht
    rw [queue_emptied, ht]
    split
    · exact .inr rfl
    · exact .inl rfl
  cases d with
  | controller p =>
    rw [resetTaken_controller, resetController_eq]
    split
    · exact hemptied p _ rfl
    · exact .inl rfl
  | queue p => exact hemptied p _ rfl
  | events =>
    unfold resetTaken resetDone
    dsimp only
    split <;> exact .inl rfl
  | _ => exact .inl rfl

theorem reception_resetTaken (d : Delivery) (q : SegId) (s : State) :
    reception q (resetTaken d s) = reception q s ∨ reception q (resetTaken d s) = none := by
  cases d with
  | controller p =>
    have hreset : reception q (controllerReset p { s with undelivered := s.undelivered - 1 }) = reception q s
        ∨ reception q (controllerReset p { s with undelivered := s.undelivered - 1 }) = none := by
      by_cases hp : q = p
      · exact .inr (hp ▸ getAt_putAt_same _ _ _)
      · exact .inl (getAt_putAt_ne _ _ hp)
    rw [resetTaken_controller, resetController_eq]
    split <;> exact hreset
  | listen => exact .inr (getAt_replicate _ _)
  | events =>
    unfold resetTaken resetDone
    dsimp only
    split <;> exact .inl rfl
  | _ => exact .inl rfl

theorem slot_emptied (q : SegId) (k : SlotId) (s : State) :
    slot k (emptied q s) = slot k s ∨ slot k (emptied q s) = Slot.reset := by
  unfold slot emptied
  rw [getAt_tabulate]
  split
  · exact .inr rfl
  · exact .inl rfl

theorem slot_controllerReset (q : SegId) (k : SlotId) (s : State) :
    slot k (controllerReset q s) = slot k s ∨ slot k (controllerReset q s) = Slot.reset := by
  unfold slot controllerReset
  rw [getAt_tabulate]
  split
  · exact .inr rfl
  · exact .inl rfl

theorem slot_resetTaken (d : Delivery) (k : SlotId) (s : State) :
    slot k (resetTaken d s) = slot k s ∨ slot k (resetTaken d s) = Slot.reset := by
  cases d with
  | controller q =>
    have hreset := slot_controllerReset q k { s with undelivered := s.undelivered - 1 }
    rw [resetTaken_controller, resetController_eq]
    split
    · rcases slot_emptied q k (controllerReset q { s with undelivered := s.undelivered - 1 }) with h | h
      · rw [h]; exact hreset
      · exact .inr h
    · exact hreset
  | queue q => exact slot_emptied q k { s with undelivered := s.undelivered - 1 }
  | slots => exact .inr (getAt_replicate _ _)
  | events =>
    unfold resetTaken resetDone
    dsimp only
    split <;> exact .inl rfl
  | _ => exact .inl rfl

/-! ## The blocks once all deliveries are taken -/

section
variable {ds : List Delivery} (s : State)

theorem mirrorBlock_delivered (hd : .mirrorAndScheduler ∈ ds) :
    mirrorBlock (delivered ds s) = mirrorAfter (mirrorBlock s) :=
  delivered_map mirrorAfter_mirrorAfter mirrorBlock_resetTaken mirrorBlock_taken hd s

theorem listenBlock_delivered (hd : .listen ∈ ds) : listenBlock (delivered ds s) = listenAfter (listenBlock s) :=
  delivered_map listenAfter_listenAfter listenBlock_resetTaken (fun _ => rfl) hd s

theorem ctl_delivered (q : SegId) (hd : .controller q ∈ ds) : Halted (ctl q s) (ctl q (delivered ds s)) := by
  have htaken : ∀ t, Halted (ctl q t) (ctl q (resetTaken (.controller q) t)) := fun t => by
    rw [ctl_resetTaken_controller, if_pos rfl]
    exact jobDropped_halted q t
  refine delivered_reaches (v := ctl q) (reset := Halted) (fun _ _ _ => Halted.trans) (fun d t => ?_) htaken hd s
  by_cases h : d = .controller q
  · exact .inr (h ▸ htaken t)
  · exact .inl (ctl_resetTaken h t)

theorem queue_delivered (q : SegId) (hd : .queue q ∈ ds) : queue q (delivered ds s) = SegQueue.reset :=
  delivered_const (v := queue q) (d := .queue q) (fun d t => queue_resetTaken d q t)
    (fun t => (queue_emptied q q { t with undelivered := t.undelivered - 1 }).trans (if_pos rfl)) hd s

theorem reception_delivered (q : SegId) (hd : .listen ∈ ds) : reception q (delivered ds s) = none :=
  delivered_const (v := reception q) (d := .listen) (fun d t => reception_resetTaken d q t) (fun _ => getAt_replicate _ _) hd s

theorem slot_delivered (k : SlotId) (hd : .slots ∈ ds) : slot k (delivered ds s) = Slot.reset :=
  delivered_const (v := slot k) (d := .slots) (fun d t => slot_resetTaken d k t) (fun _ => getAt_replicate _ _) hd s

end

/-! ## The end of RESETTING (R151) -/

theorem resetting_delivered {ds rest : List Delivery} {s : State} (h : deliveriesLeft s = ds ++ rest) (hrest : rest ≠ []) :
    (delivered ds s).resetting = s.resetting := by
  induction ds generalizing s with
  | nil => rfl
  | cons d ds ih =>
    exact (ih (deliveriesLeft_resetTaken h)).trans (resetting_resetTaken h (by simp [hrest]))

/-- With the Event Unit's delivery, the last, the flags are cleared, and RESETTING ends where every controller is OFFLINE. -/
theorem delivered_all {s : State} (hr : s.resetting = true) (hs : s.undelivered ≠ 0) :
    let t := delivered (deliveriesLeft s) s
    ((∀ p, (ctl p t).state = .offline) → t.resetting = false ∧ t.flags = 0x1000#13)
      ∧ ((∃ p, (ctl p t).state ≠ .offline) → t.resetting = true ∧ t.flags = 0#13) := by
  obtain ⟨before, hbefore⟩ := deliveriesLeft_eq_append hs
  have hlast := deliveriesLeft_delivered hbefore
  have hresetting := (resetting_delivered hbefore (List.cons_ne_nil _ _)).trans hr
  have hnone : (delivered before s).undelivered - 1 = 0 := deliveriesLeft_nil.1 (deliveriesLeft_next hlast).1
  have hall : delivered (deliveriesLeft s) s
      = resetDone { delivered before s with undelivered := 0, flags := 0#13 } := by
    rw [hbefore, delivered_append, ← hnone]
    rfl
  have hctl : ∀ p, ctl p (delivered (deliveriesLeft s) s) = ctl p (delivered before s) := fun p => by
    rw [hbefore, delivered_append]
    exact ctl_resetTaken (d := .events) nofun _
  dsimp only
  simp only [hctl]
  rw [hall]
  refine ⟨fun h => ?_, fun ⟨p, hp⟩ => ?_⟩
  · rw [resetDone, if_pos ⟨rfl, h⟩]
    exact ⟨rfl, BitVec.zero_or⟩
  · rw [resetDone, if_neg fun hend => hp (hend.2 p)]
    exact ⟨hresetting, rfl⟩

/-! ## Access errors beside a soft reset (R150) -/

theorem writeError_resetting {l : Loc} {be : BitVec 4} {s : State} (hr : s.resetting = true) (hkind : l.kind ≠ .readOnly)
    (hfull : l.kind = .fullWord → be = 0xF#4) (hcommand : l ≠ .global .command) (hflags : l ≠ .global .flags) :
    writeError (some l) be s = some .resetting := by
  have htaken : takenWhileResetting l = false := by
    rw [takenWhileResetting, Bool.or_eq_false_iff]
    exact ⟨beq_false_of_ne hcommand, beq_false_of_ne hflags⟩
  rw [writeError, if_neg hkind, if_neg fun h => h.2 (hfull h.1), if_pos ⟨hr, htaken⟩]

/-- The Event Unit's delivery clears the flag of a write dropped before it; record and count stay. -/
theorem errorTaken_before_events {a : Addr} {s : State} (hr : s.resetting = true) (hleft : .events ∈ deliveriesLeft s) :
    (nextDeliveries s.undelivered.val (errorTaken a true .resetting s)).flags.getLsbD 11 = false
      ∧ (nextDeliveries s.undelivered.val (errorTaken a true .resetting s)).accessRecord
        = (errorTaken a true .resetting s).accessRecord
      ∧ (nextDeliveries s.undelivered.val (errorTaken a true .resetting s)).accessCount
        = (errorTaken a true .resetting s).accessCount := by
  have hsome : s.undelivered ≠ 0 := fun hzero => by
    rw [deliveriesLeft_nil.2 hzero] at hleft
    cases hleft
  refine ⟨?_, ?_⟩
  · have hnext : nextDeliveries s.undelivered.val (errorTaken a true .resetting s)
        = delivered (deliveriesLeft s) (errorTaken a true .resetting s) :=
      nextDeliveries_all (s := errorTaken a true .resetting s) hr
    obtain ⟨hended, hlasts⟩ := delivered_all (s := errorTaken a true .resetting s) hr hsome
    have hcases : (delivered (deliveriesLeft s) (errorTaken a true .resetting s)).flags = 0x1000#13
        ∨ (delivered (deliveriesLeft s) (errorTaken a true .resetting s)).flags = 0#13 := by
      by_cases h : ∀ p, (ctl p (delivered (deliveriesLeft s) (errorTaken a true .resetting s))).state = .offline
      · exact .inl (hended h).2
      · exact .inr (hlasts (not_forall.1 h)).2
    rw [hnext]
    rcases hcases with h | h <;> rw [h] <;> decide
  · obtain ⟨_, _, _, _, _, _, _, _, _, _, _, _, _, _, _, hframe⟩ :=
      nextDeliveries_frame s.undelivered.val (errorTaken a true .resetting s)
    rw [hframe]
    exact ⟨rfl, rfl⟩

/-- Once the Event Unit has taken its delivery none is left, and the flag stays. -/
theorem errorTaken_after_events {a : Addr} {s : State} (hleft : .events ∉ deliveriesLeft s) :
    (errorTaken a true .resetting s).flags.getLsbD 11 = true
      ∧ nextDelivery (errorTaken a true .resetting s) = errorTaken a true .resetting s := by
  refine ⟨?_, nextDelivery_idle (.inr ?_)⟩
  · show (s.flags ||| 0x800#13).getLsbD 11 = true
    rw [BitVec.getLsbD_or]
    exact Bool.or_true _
  · by_contra hsome
    obtain ⟨before, hbefore⟩ := deliveriesLeft_eq_append (s := s) hsome
    exact hleft (by rw [hbefore]; simp)

theorem exec_hostWrite_resetting {a : Addr} {l : Loc} {be : BitVec 4} (data : Word) {s : State} (hs : s.inReset = false)
    (hr : s.resetting = true) (ha : locate a = some l) (hkind : l.kind ≠ .readOnly)
    (hfull : l.kind = .fullWord → be = 0xF#4) (hcommand : l ≠ .global .command) (hflags : l ≠ .global .flags) :
    exec (.hostWrite a be data) s = .next (errorTaken a true .resetting s) := by
  rw [exec_hostWrite_at ha, writeWord_error data hs (writeError_resetting hr hkind hfull hcommand hflags)]

/-! ## The command SOFT_RESET -/

/-- What has passed on the lines is taken before the command (log entry 13). -/
theorem exec_softReset_reports (arg : Byte) (tag : Half) (reports : List LineReport) (taken : Fin 21) {s : State}
    (hs : Ready s) :
    exec (.softReset arg tag reports taken) s = exec (.softReset arg tag [] taken) (linesPass reports s) := by
  have htaken : outOfReset (linesPass reports) s = linesPass reports s := outOfReset_released hs.1
  have hnone : outOfReset (linesPass []) (linesPass reports s) = linesPass reports s :=
    outOfReset_released (ready_linesPass reports hs).1
  refine congrArg Host.Outcome.next ?_
  rw [htaken, hnone]

/-- RESETTING as SOFT_RESET enters it, with all deliveries waiting (R149). -/
def resetBegun (arg : Byte) (tag : Half) (s : State) : State :=
  accepted 0x7F#8 arg tag { s with resetting := true, undelivered := 20 }

/-- SOFT_RESET is accepted, and so many deliveries follow at once (log entry 32). -/
theorem exec_softReset (arg : Byte) (tag : Half) (taken : Fin 21) {s : State} (hs : Ready s) :
    exec (.softReset arg tag [] taken) s = .next (nextDeliveries taken.val (resetBegun arg tag s)) := by
  have hnone : outOfReset (linesPass []) s = s := outOfReset_released hs.1
  have hport := portCommand_ready 0x7F#8 arg tag () (softReset taken) hs.1 hs.2
  refine congrArg Host.Outcome.next ?_
  rw [hnone, commandSoftReset, hport]
  exact (nextDeliveries_result taken.val _ _).symm

theorem deliveriesLeft_begun {s : State} (h : s.undelivered = 20) : deliveriesLeft s = resetOrder := by
  rw [deliveriesLeft, h]
  rfl

theorem nextDeliveries_begun (arg : Byte) (tag : Half) (s : State) :
    nextDeliveries 20 (resetBegun arg tag s) = delivered resetOrder (resetBegun arg tag s) :=
  nextDeliveries_all (s := resetBegun arg tag s) rfl

/-- With all deliveries taken before the next command. -/
theorem exec_softReset_all (arg : Byte) (tag : Half) {s : State} (hs : Ready s) :
    exec (.softReset arg tag) s = .next (delivered resetOrder (resetBegun arg tag s)) := by
  rw [← nextDeliveries_begun]
  exact exec_softReset arg tag 20 hs

section
variable (arg : Byte) (tag : Half) (s : State)

/-- What no delivery touches (R149, R150). -/
theorem delivered_begun_kept :
    let t := delivered resetOrder (resetBegun arg tag s)
    t.command = word 0x7F#8 arg tag
      ∧ t.result = { code := 0x7F#8, outcome := .accepted, reason := .none, tag := tag }
      ∧ t.enables = s.enables ∧ t.timebase = s.timebase ∧ t.accessRecord = s.accessRecord
      ∧ t.accessCount = s.accessCount ∧ t.detailSelect = s.detailSelect ∧ t.readData = s.readData
      ∧ t.pending = s.pending ∧ t.freeIndex = s.freeIndex ∧ t.inReset = s.inReset := by
  obtain ⟨_, _, _, _, _, _, _, _, _, _, _, _, _, _, _, hframe⟩ := nextDeliveries_frame 20 (resetBegun arg tag s)
  rw [← nextDeliveries_begun, hframe]
  exact ⟨rfl, rfl, rfl, rfl, rfl, rfl, rfl, rfl, rfl, rfl, rfl⟩

theorem undelivered_delivered_begun : (delivered resetOrder (resetBegun arg tag s)).undelivered = 0 :=
  deliveriesLeft_nil.1 (deliveriesLeft_delivered (ds := resetOrder) (rest := []) (List.append_nil _).symm)

theorem ctl_delivered_begun (q : SegId) :
    Halted (ctl q s) (ctl q (delivered resetOrder (resetBegun arg tag s))) := by
  have hmem : ∀ q, Delivery.controller q ∈ resetOrder := by decide
  exact ctl_delivered (resetBegun arg tag s) q (hmem q)

/-- The Mirror Table and the Refresh Scheduler, and what was on its way to them (R26, R47; log entry 8). -/
theorem mirror_delivered_begun :
    let t := delivered resetOrder (resetBegun arg tag s)
    (∀ e, entry e t = softResetEntry (entry e s)) ∧ (∀ g, group g t = softResetGroup (group g s))
      ∧ t.reports = [] ∧ t.notices = [] := by
  have hblock := mirrorBlock_delivered (resetBegun arg tag s) (ds := resetOrder) (by decide)
  dsimp only
  generalize delivered resetOrder (resetBegun arg tag s) = t at hblock
  simp only [mirrorBlock, mirrorAfter, Prod.mk.injEq] at hblock
  obtain ⟨hentries, hgroups, hreports, hnotices⟩ := hblock
  refine ⟨fun e => ?_, fun g => ?_, hreports, hnotices⟩
  · rw [entry, hentries, getAt_tabulate]
    rfl
  · rw [group, hgroups, getAt_tabulate]
    rfl

/-- The Listen Unit (R144). -/
theorem listen_delivered_begun :
    let t := delivered resetOrder (resetBegun arg tag s)
    (∀ i, listenEntry i t = softResetListen (listenEntry i s)) ∧ t.ring = [] ∧ t.nextSequence = 0#16
      ∧ t.lostCount = 0#16 := by
  have hblock := listenBlock_delivered (resetBegun arg tag s) (ds := resetOrder) (by decide)
  dsimp only
  generalize delivered resetOrder (resetBegun arg tag s) = t at hblock
  simp only [listenBlock, listenAfter, Prod.mk.injEq] at hblock
  obtain ⟨hentries, hring, hsequence, hlost⟩ := hblock
  refine ⟨fun i => ?_, hring, hsequence, hlost⟩
  rw [listenEntry, hentries, getAt_tabulate]
  rfl

/-- RESETTING lasts while a frame or a stop attempt of the part is on the wire (R151). -/
theorem resetting_delivered_begun :
    let t := delivered resetOrder (resetBegun arg tag s)
    ((∃ q, onWire (ctl q s)) → t.resetting = true ∧ t.flags = 0#13)
      ∧ ((∀ q, ¬ onWire (ctl q s)) → t.resetting = false ∧ t.flags = 0x1000#13) := by
  have hctl := ctl_delivered_begun arg tag s
  have hleft : deliveriesLeft (resetBegun arg tag s) = resetOrder := deliveriesLeft_begun rfl
  obtain ⟨hended, hlasts⟩ := delivered_all (s := resetBegun arg tag s) rfl (show (20 : Fin 21) ≠ 0 by decide)
  rw [hleft] at hended hlasts
  refine ⟨fun ⟨q, hwire⟩ => hlasts ⟨q, ?_⟩, fun hquiet => hended fun q => ?_⟩
  · obtain ⟨hstate, -⟩ := (hctl q).wire hwire
    rw [hstate]
    exact nofun
  · rw [(hctl q).quiet (hquiet q)]
    rfl

end

/-- Settles O55: the command, the order of the deliveries, each of them, the writes dropped beside them, and the whole. -/
theorem softResetDeliversToEveryBlock : Obligations.SoftResetDeliversToEveryBlock := by
  refine ⟨fun arg tag s hs => ⟨fun reports taken =>
      ⟨ready_linesPass reports hs, exec_softReset_reports arg tag reports taken hs⟩,
      fun taken => exec_softReset arg tag taken hs⟩,
    fun s h => (deliveriesLeft_begun h).trans (by decide),
    fun s d rest hr h => ⟨nextDelivery_eq_resetTaken hr h, deliveriesLeft_resetTaken h⟩, ?_, ?_⟩
  · intro a l be data s hs hr ha hkind hfull _ hcommand hflags
    exact ⟨_, exec_hostWrite_resetting data hs hr ha hkind hfull hcommand hflags, rfl, errorTaken_before_events hr,
      errorTaken_after_events⟩
  · intro arg tag s hs
    have hqueue : ∀ q, Delivery.queue q ∈ resetOrder := by decide
    have hlisten : Delivery.listen ∈ resetOrder := by decide
    have hslots : Delivery.slots ∈ resetOrder := by decide
    obtain ⟨hcommand, hresult, henables, htimebase, hrecord, hcount, hselect, hread, hpending, hfree, hreset⟩ :=
      delivered_begun_kept arg tag s
    obtain ⟨hlasts, hended⟩ := resetting_delivered_begun arg tag s
    obtain ⟨hentries, hgroups, hreports, hnotices⟩ := mirror_delivered_begun arg tag s
    obtain ⟨hentry, hring, hsequence, hlost⟩ := listen_delivered_begun arg tag s
    refine ⟨_, exec_softReset_all arg tag hs, hcommand, by rw [hresult], by rw [hresult], by rw [hresult],
      undelivered_delivered_begun arg tag s, hlasts, hended, fun q => (ctl_delivered_begun arg tag s q).quiet,
      fun q => (ctl_delivered_begun arg tag s q).wire,
      fun q => ⟨queue_delivered _ q (hqueue q), reception_delivered _ q hlisten⟩,
      fun e => (hentries e).trans (softResetEntry_eq _), hgroups, fun k => slot_delivered _ k hslots, hentry, hring,
      hsequence, hlost, hreports, hnotices, henables, htimebase, hrecord, hcount, hselect, hread, hpending, hfree,
      hreset.trans hs.1⟩

end Sys2Proof.Proofs
end

section
/-! RESETn (R160): what a command does about it. Only PIN_RESET asserts it and only PIN_RESET_RELEASE releases it; while it is
asserted no other command reaches a block, whose pin-reset values therefore stay. -/

namespace Sys2Proof.Proofs

open Sys2Proof.Machine Sys2Proof.Safety Sys2Proof.Spec

/-! ## The pin is no operation's to change -/

theorem inReset_of_mirror {s t : State} (h : MirrorStep s t) : t.inReset = s.inReset := by
  obtain ⟨_, _, _, _, _, hframe⟩ := h.frame
  rw [hframe]

theorem inReset_of_line {q : SegId} {s t : State} (h : LineStep q s t) : t.inReset = s.inReset := by
  obtain ⟨_, _, _, _, _, _, _, hframe⟩ := h.frame
  rw [hframe]

@[simp] theorem inReset_nextDeliveries (n : Nat) (s : State) : (nextDeliveries n s).inReset = s.inReset := by
  obtain ⟨_, _, _, _, _, _, _, _, _, _, _, _, _, _, _, hframe⟩ := nextDeliveries_frame n s
  rw [hframe]

theorem inReset_nextDelivery (s : State) : (nextDelivery s).inReset = s.inReset := inReset_nextDeliveries 1 s

theorem inReset_tick (reports : List LineReport) (s : State) : (tick reports s).inReset = s.inReset :=
  inReset_linesPass reports s

/-! ### Receptions (R99, R100, R134, R137) -/

theorem inReset_decideAddress (q : SegId) (byte : Byte) (s : State) : (decideAddress q byte s).inReset = s.inReset := by
  unfold decideAddress
  repeat' split
  all_goals rfl

theorem inReset_addressByteDecisionEvent (q : SegId) (byte : Byte) (s : State) :
    (addressByteDecisionEvent q byte s).inReset = s.inReset := by
  unfold addressByteDecisionEvent
  split
  · exact inReset_decideAddress q _ _
  · rfl

theorem inReset_endReception (q : SegId) (r : Reception) (s : State) : (endReception q r s).inReset = s.inReset := by
  unfold endReception sendNotice
  repeat' split
  all_goals rfl

theorem inReset_receptionEndEvent (q : SegId) (bytes : List Byte) (ending : ReceptionEnding) (s : State) :
    (receptionEndEvent q bytes ending s).inReset = s.inReset := by
  unfold receptionEndEvent
  split
  · next r _ _ =>
    have hended : (endReception q r (modCtl q (receiveBytes bytes) s)).inReset = s.inReset := inReset_endReception q r _
    dsimp only
    split
    · exact (inReset_of_line (foreignEnds_line q _)).trans hended
    · exact hended
  · rfl

theorem inReset_foreignStartEvent (q : SegId) (s : State) : (foreignStartEvent q s).inReset = s.inReset := by
  have hbegins := inReset_of_line (foreignBegins_line q s)
  unfold foreignStartEvent
  split
  iterate 3 exact hbegins
  · split
    · exact hbegins
    all_goals rfl
  · rfl
  · exact inReset_receptionEndEvent q [] .repeatedStart s
  all_goals rfl

theorem inReset_foreignStopEvent (q : SegId) (s : State) : (foreignStopEvent q s).inReset = s.inReset := by
  unfold foreignStopEvent
  split
  · exact inReset_of_line (foreignEnds_line q s)
  · exact inReset_receptionEndEvent q [] .stop s
  all_goals rfl

/-! ### Reports, notices and due timers -/

theorem inReset_startReportEvent (e : EntryId) (s : State) : (startReportEvent e s).inReset = s.inReset := by
  unfold startReportEvent startTaken
  dsimp only
  repeat' split
  all_goals rfl

theorem inReset_refreshCompletionEvent (e : EntryId) (s : State) :
    (refreshCompletionEvent e s).inReset = s.inReset := by
  unfold refreshCompletionEvent
  split
  · split
    · rw [inReset_of_mirror (takeRefresh_step e _ _)]
    · rfl
  all_goals rfl

theorem inReset_memberRefreshCompletionEvent (e : EntryId) (s : State) :
    (memberRefreshCompletionEvent e s).inReset = s.inReset := by
  unfold memberRefreshCompletionEvent
  split
  · split
    · rfl
    · split
      · rw [inReset_of_mirror (takeMemberRefresh_step e _ _ _)]
      · rfl
  all_goals rfl

theorem inReset_writeCompletionEvent (e : EntryId) (s : State) : (writeCompletionEvent e s).inReset = s.inReset := by
  unfold writeCompletionEvent
  split
  · dsimp only
    split
    · split
      · rw [inReset_of_mirror (enabledWrite_step e _ _)]
      · rw [inReset_of_mirror (reachDisabled_step e _), inReset_modEntry]
      · rfl
    · rfl
  all_goals rfl

theorem inReset_slotCompletionEvent (k : SlotId) (s : State) : (slotCompletionEvent k s).inReset = s.inReset := by
  unfold slotCompletionEvent
  split <;> rfl

theorem inReset_deviceNoticeEvent (s : State) : (deviceNoticeEvent s).inReset = s.inReset := by
  unfold deviceNoticeEvent
  split
  · rfl
  · rw [inReset_of_mirror (takeNotice_step _ _)]

theorem inReset_entryDueExpiryEvent (e : EntryId) (s : State) : (entryDueExpiryEvent e s).inReset = s.inReset := by
  unfold entryDueExpiryEvent
  split
  · split
    · exact inReset_of_mirror (entryExpiry_step e _ s)
    · rfl
  · rfl

theorem inReset_groupDueExpiryEvent (g : GroupId) (s : State) : (groupDueExpiryEvent g s).inReset = s.inReset := by
  unfold groupDueExpiryEvent
  split
  · split
    · exact inReset_of_mirror (groupExpiry_step g _ s)
    · rfl
  · rfl

/-! ### The owners of the commands -/

theorem inReset_slotSubmit (k : SlotId) (s : State) : (slotSubmit k s).1.inReset = s.inReset := by
  have hadmit := inReset_of_mirror
    (admit_step (slot k s).seg { ref := .direct k, cls := .urgent, tag := none, attempts := 0#3 } s)
  unfold slotSubmit
  split
  · rfl
  · split
    · rfl
    · revert hadmit
      split <;> next heq => rw [heq]; exact id

theorem inReset_slotCancel (k : SlotId) (s : State) : (slotCancel k s).1.inReset = s.inReset := by
  have hremoved := inReset_of_mirror (removeJob_step (slot k s).seg (.direct k) s)
  unfold slotCancel
  split
  · rfl
  · rfl
  · exact hremoved
  · split
    · rfl
    · exact (inReset_of_line (abortRequest_line (slot k s).seg k _)).trans (inReset_modSlot k _ s)

theorem inReset_slotRelease (k : SlotId) (s : State) : (slotRelease k s).1.inReset = s.inReset := by
  unfold slotRelease
  split <;> rfl

theorem inReset_listenEnable (i : ListenId) (s : State) : (listenEnable i s).1.inReset = s.inReset := by
  unfold listenEnable
  repeat' split
  all_goals rfl

theorem inReset_listenDisable (i : ListenId) (s : State) : (listenDisable i s).1.inReset = s.inReset := by
  unfold listenDisable
  split <;> rfl

theorem inReset_capturePop (u : Unit) (s : State) : (capturePop u s).1.inReset = s.inReset := by
  unfold capturePop
  split <;> rfl

theorem inReset_softReset (taken : Fin 21) (u : Unit) (s : State) : (softReset taken u s).1.inReset = s.inReset :=
  inReset_nextDeliveries taken.val _

/-! ## Commands under the pin -/

/-- What a command other than the two of RESETn does: it leaves the pin, and while RESETn is asserted every block. Of the part only
the data lines can change then, which a read drives to 0 (R160). -/
structure UnderPin (s t : State) : Prop where
  pin : t.inReset = s.inReset
  held : s.inReset = true → t = s ∨ t = { s with readData := 0#32 }

namespace UnderPin
variable {s t u : State}

theorem trans (h : UnderPin s t) (k : UnderPin t u) : UnderPin s u := by
  refine ⟨k.pin.trans h.pin, fun hs => ?_⟩
  have hunder := k.held (h.pin.trans hs)
  rcases h.held hs with rfl | rfl
  · exact hunder
  · exact .inr (or_self_iff.1 hunder)

/-- A host write, which changes nothing while RESETn is asserted. -/
theorem of_write (hpin : t.inReset = s.inReset) (hheld : s.inReset = true → t = s) : UnderPin s t :=
  ⟨hpin, fun hs => .inl (hheld hs)⟩

/-- An event of the part takes place only while RESETn is released (log entry 25). -/
theorem of_event {f : State → State} (h : ∀ s, (f s).inReset = s.inReset) (s : State) : UnderPin s (outOfReset f s) := by
  unfold outOfReset
  split
  · exact .of_write rfl fun _ => rfl
  · next hs => exact .of_write (h s) fun hasserted => absurd hasserted hs

/-- An event of one segment. -/
theorem of_segment {f : State → State} {q : SegId} (h : ∀ s, SegStep q s (f s)) (s : State) :
    UnderPin s (outOfReset f s) := of_event (fun s => inReset_of_line (h s).line) s

/-- A command with a known code at the Command Port. -/
theorem of_port {α : Type} {owner : α → State → State × Answer} (h : ∀ i s, (owner i s).1.inReset = s.inReset)
    (code arg : Byte) (tag : Half) (index : Option α) (s : State) :
    UnderPin s (portCommand code arg tag index owner s) := by
  refine .of_write ?_ (portCommand_inReset code arg tag index owner)
  have hanswer (a : Answer) (t : State) : (answerCommand code tag a t).inReset = t.inReset := by cases a <;> rfl
  unfold portCommand
  split
  · rfl
  · dsimp only
    split
    · exact hanswer _ _
    · split
      · exact hanswer _ _
      · exact (hanswer _ _).trans (h _ _)

end UnderPin

/-- A command is its owner's, after what has passed on the lines. -/
theorem exec_command_underPin {i : Instr} (h : (commandOf i).isSome = true) (s : State) :
    ∃ t, exec i s = .next t ∧ UnderPin s t := by
  have hlines (reports : List LineReport) := UnderPin.of_event (inReset_linesPass reports) s
  cases i with
  | entryEnable => exact ⟨_, rfl, .of_port (fun e s => inReset_of_mirror (entryEnable_step e s)) _ _ _ _ s⟩
  | entryDisable => exact ⟨_, rfl, .of_port (fun e s => inReset_of_mirror (entryDisable_step e s)) _ _ _ _ s⟩
  | entryRefresh => exact ⟨_, rfl, .of_port (fun e s => inReset_of_mirror (entryRefresh_step e s)) _ _ _ _ s⟩
  | entryCommit => exact ⟨_, rfl, .of_port (fun e s => inReset_of_mirror (entryCommit_step e s)) _ _ _ _ s⟩
  | entryAckFault => exact ⟨_, rfl, .of_port (fun e s => inReset_of_mirror (entryAckFault_step e s)) _ _ _ _ s⟩
  | groupSweep => exact ⟨_, rfl, .of_port (fun g s => inReset_of_mirror (groupSweep_step g s)) _ _ _ _ s⟩
  | segmentOnline _ _ sense =>
    exact ⟨_, rfl, .of_port (fun q s => inReset_of_line (segmentOnline_segStep sense q s).line) _ _ _ _ s⟩
  | segmentOffline => exact ⟨_, rfl, .of_port (fun q s => inReset_of_line (segmentOffline_segStep q s).line) _ _ _ _ s⟩
  | segmentRestore _ _ sense =>
    exact ⟨_, rfl, .of_port (fun q s => inReset_of_line (segmentRestore_segStep sense q s).line) _ _ _ _ s⟩
  | slotSubmit => exact ⟨_, rfl, .of_port inReset_slotSubmit _ _ _ _ s⟩
  | slotCancel _ _ reports => exact ⟨_, rfl, (hlines reports).trans (.of_port inReset_slotCancel _ _ _ _ _)⟩
  | slotRelease => exact ⟨_, rfl, .of_port inReset_slotRelease _ _ _ _ s⟩
  | listenEnable => exact ⟨_, rfl, .of_port inReset_listenEnable _ _ _ _ s⟩
  | listenDisable => exact ⟨_, rfl, .of_port inReset_listenDisable _ _ _ _ s⟩
  | capturePop => exact ⟨_, rfl, .of_port inReset_capturePop _ _ _ _ s⟩
  | captureFlush => exact ⟨_, rfl, .of_port (fun _ _ => rfl) _ _ _ _ s⟩
  | softReset _ _ reports taken =>
    exact ⟨_, rfl, (hlines reports).trans (.of_port (inReset_softReset taken) _ _ _ _ _)⟩
  | _ => cases h

/-- A full write of the command word leaves the pin: it is the command of its code, with the free value drawn where one is. -/
theorem inReset_issueCommand (code arg : Byte) (tag : Half) (s : State) :
    (issueCommand code arg tag s).inReset = s.inReset := by
  have hcommand (i : Instr) {t u : State} (h : (commandOf i).isSome = true) (hexec : exec i t = .next u) :
      u.inReset = t.inReset := by
    obtain ⟨_, hnext, hunder⟩ := exec_command_underPin h t
    cases hexec.symm.trans hnext
    exact hunder.pin
  unfold issueCommand
  split
  · rfl
  · split
    · exact hcommand (.entryEnable arg tag) rfl rfl
    · exact hcommand (.entryDisable arg tag) rfl rfl
    · exact hcommand (.entryRefresh arg tag) rfl rfl
    · exact hcommand (.entryCommit arg tag) rfl rfl
    · exact hcommand (.entryAckFault arg tag) rfl rfl
    · exact hcommand (.groupSweep arg tag) rfl rfl
    · exact hcommand (.segmentOnline arg tag _) (t := drawSense s) rfl rfl
    · exact hcommand (.segmentOffline arg tag) rfl rfl
    · exact hcommand (.segmentRestore arg tag _) (t := drawSense s) rfl rfl
    · exact hcommand (.slotSubmit arg tag) rfl rfl
    · exact UnderPin.pin (.of_port inReset_slotCancel _ _ _ _ s)
    · exact hcommand (.slotRelease arg tag) rfl rfl
    · exact hcommand (.listenEnable arg tag) rfl rfl
    · exact hcommand (.listenDisable arg tag) rfl rfl
    · exact hcommand (.capturePop arg tag) rfl rfl
    · exact hcommand (.captureFlush arg tag) rfl rfl
    · exact UnderPin.pin (.of_port (inReset_softReset 20) _ _ _ _ s)
    · rfl

/-! ### Host accesses (R155 to R158) -/

theorem inReset_storeLoc (l : Loc) (be : BitVec 4) (data : Word) (s : State) :
    (storeLoc l be data s).inReset = s.inReset := by
  cases l with
  | global w =>
    cases w with
    | command => exact inReset_issueCommand _ _ _ s
    | _ => rfl
  | groupPeriod g =>
    simp only [storeLoc, storeGroupPeriod]
    split
    · rw [startGroupTimer, inReset_of_mirror (groupExpiry_step g _ _), inReset_modGroup]
    · rfl
  | _ => rfl

theorem writeWord_underPin (l : Option Loc) (a : Addr) (be : BitVec 4) (data : Word) (s : State) :
    UnderPin s (writeWord l a be data s) := by
  refine .of_write ?_ (writeWord_inReset l a be data)
  unfold writeWord
  split
  · rfl
  · split
    · exact inReset_storeLoc _ be data s
    · rfl
    · rfl

/-- While RESETn is asserted a read returns 0 and is no access error (R160). -/
theorem hostRead_inReset (a : Addr) {s : State} (hs : s.inReset = true) : hostRead a s = { s with readData := 0#32 } := by
  simp [hostRead, hostReadValue, hs]

theorem hostRead_underPin (a : Addr) (s : State) : UnderPin s (hostRead a s) := by
  refine ⟨?_, fun hs => .inr (hostRead_inReset a hs)⟩
  unfold hostRead
  dsimp only
  split <;> rfl

/-! ### Every command but the two of RESETn -/

theorem exec_underPin {i : Instr} (hreset : i ≠ .pinReset) (hrelease : i ≠ .pinResetRelease) (s : State) :
    ∃ t, exec i s = .next t ∧ UnderPin s t := by
  cases i with
  | entryEnable | entryDisable | entryRefresh | entryCommit | entryAckFault | groupSweep | segmentOnline | segmentOffline
  | segmentRestore | slotSubmit | slotCancel | slotRelease | listenEnable | listenDisable | capturePop | captureFlush
  | softReset => exact exec_command_underPin rfl s
  | unknownCommand code arg tag =>
    exact ⟨_, rfl, .of_write (inReset_issueCommand code arg tag s) (issueCommand_inReset code arg tag)⟩
  | stagingBufferWrite | groupPeriodWrite | eventFlagWrite | eventEnableWrite | accessErrorRecordClear
  | accessErrorCountClear | hostWrite => exact ⟨_, rfl, writeWord_underPin _ _ _ _ s⟩
  | unmappedRead a => exact ⟨_, rfl, hostRead_underPin a s⟩
  | pinReset => exact absurd rfl hreset
  | pinResetRelease => exact absurd rfl hrelease
  | timebaseTick reports => exact ⟨_, rfl, .of_event (inReset_tick reports) s⟩
  | entryDueExpiry e => exact ⟨_, rfl, .of_event (inReset_entryDueExpiryEvent e) s⟩
  | groupDueExpiry g => exact ⟨_, rfl, .of_event (inReset_groupDueExpiryEvent g) s⟩
  | selection q => exact ⟨_, rfl, .of_segment (selectionEvent_segStep q) s⟩
  | startReport e => exact ⟨_, rfl, .of_event (inReset_startReportEvent e) s⟩
  | attemptBegin q lines sense => exact ⟨_, rfl, .of_segment (attemptBeginEvent_segStep q lines sense) s⟩
  | frameEnd q wire => exact ⟨_, rfl, .of_segment (frameEndEvent_segStep q wire) s⟩
  | frameEndedEarly q wire => exact ⟨_, rfl, .of_segment (frameEndedEarlyEvent_segStep q wire) s⟩
  | arbitrationLoss q wire p => exact ⟨_, rfl, .of_segment (arbitrationLossEvent_segStep q wire p) s⟩
  | holdTimeout q wire => exact ⟨_, rfl, .of_segment (holdTimeoutEvent_segStep q wire) s⟩
  | stopAttemptEnd q => exact ⟨_, rfl, .of_segment (stopAttemptEndEvent_segStep q) s⟩
  | stopAttemptTimeout q sense => exact ⟨_, rfl, .of_segment (stopAttemptTimeoutEvent_segStep q sense) s⟩
  | settleEnd q => exact ⟨_, rfl, .of_segment (settleEndEvent_segStep q) s⟩
  | backoffEnd q => exact ⟨_, rfl, .of_segment (backoffEndEvent_segStep q) s⟩
  | busyLimitExpiry q => exact ⟨_, rfl, .of_segment (busyLimitExpiryEvent_segStep q) s⟩
  | foreignStart q => exact ⟨_, rfl, .of_event (inReset_foreignStartEvent q) s⟩
  | foreignStop q => exact ⟨_, rfl, .of_event (inReset_foreignStopEvent q) s⟩
  | addressByteDecision q byte => exact ⟨_, rfl, .of_event (inReset_addressByteDecisionEvent q byte) s⟩
  | receptionEnd q bytes ending => exact ⟨_, rfl, .of_event (inReset_receptionEndEvent q bytes ending) s⟩
  | deviceNotice => exact ⟨_, rfl, .of_event inReset_deviceNoticeEvent s⟩
  | refreshCompletion e => exact ⟨_, rfl, .of_event (inReset_refreshCompletionEvent e) s⟩
  | memberRefreshCompletion e => exact ⟨_, rfl, .of_event (inReset_memberRefreshCompletionEvent e) s⟩
  | writeCompletion e => exact ⟨_, rfl, .of_event (inReset_writeCompletionEvent e) s⟩
  | slotCompletion k => exact ⟨_, rfl, .of_event (inReset_slotCompletionEvent k) s⟩
  | releasePulse q lines after => exact ⟨_, rfl, .of_segment (releasePulseEvent_segStep q lines after) s⟩
  | lineClearHoldEnd q lines after => exact ⟨_, rfl, .of_segment (lineClearHoldEndEvent_segStep q lines after) s⟩
  | recoveryHoldTimeout q => exact ⟨_, rfl, .of_segment (recoveryHoldTimeoutEvent_segStep q) s⟩
  | clockLineSensedHigh q sda sense => exact ⟨_, rfl, .of_segment (clockLineSensedHighEvent_segStep q sda sense) s⟩
  | recoveryLinesSensedHigh q sda after =>
    exact ⟨_, rfl, .of_segment (recoveryLinesSensedHighEvent_segStep q sda after) s⟩

/-! ## The part held in reset -/

/-- Data lines driven to 0 are driven as pin reset leaves them. -/
theorem heldInReset_of_underPin {s t : State} (h : HeldInReset s) (k : UnderPin s t) : HeldInReset t := by
  intro ht
  have hs : s.inReset = true := k.pin.symm.trans ht
  have hread : s.readData = 0#32 := congrArg State.readData (h hs)
  have hsame : { s with readData := 0#32 } = s := by rw [← hread]
  rcases k.held hs with rfl | rfl
  · exact h ht
  · rw [hsame]
    exact h hs

theorem heldInReset_exec {i : Instr} {s t : State} (h : HeldInReset s) (hexec : exec i s = .next t) : HeldInReset t := by
  by_cases hreset : i = .pinReset
  · subst hreset
    cases hexec
    exact fun _ => rfl
  by_cases hrelease : i = .pinResetRelease
  · subst hrelease
    cases hexec
    exact nofun
  obtain ⟨u, hnext, hunder⟩ := exec_underPin hreset hrelease s
  cases hexec.symm.trans hnext
  exact heldInReset_of_underPin h hunder

/-- The queue of commands is not the part's (log entry 22). -/
theorem heldInReset_pending {s : State} (h : HeldInReset s) (cs : List Instr) : HeldInReset { s with pending := cs } :=
  fun hs => congrArg (fun x : State => { x with pending := cs }) (h hs)

/-- Settles O4: a step takes the front command, which leaves the blocks to the pin, or a delivery, which waits for its release. -/
theorem heldInResetIsKept : Obligations.HeldInResetIsKept := by
  intro s t h hstep
  cases hpending : s.pending with
  | nil =>
    cases (step_empty hpending).symm.trans hstep
    exact heldInReset_of_underPin h (.of_event inReset_nextDelivery s)
  | cons c rest =>
    have hfront : step s = exec c { s with pending := rest } := by rw [step, hpending]
    exact heldInReset_exec (heldInReset_pending h rest) (hfront.symm.trans hstep)

end Sys2Proof.Proofs
end

section
/-! Pin reset and the timebase (R27, R160), and the invariants in the state that pin reset leaves. -/

namespace Sys2Proof.Proofs

open Sys2Proof.Machine Sys2Proof.Safety Sys2Proof.Spec

/-! ## RESETn asserted -/

section
variable {s : State} (hs : s.inReset = true)
include hs

/-- While RESETn is asserted a host write changes nothing. -/
theorem exec_isHostWrite_inReset {i : Instr} (h : isHostWrite i = true) : exec i s = .next s := by
  have hcommand (hsome : (commandOf i).isSome = true) : exec i s = .next s := by
    obtain ⟨⟨_, _, _⟩, hof⟩ := Option.isSome_iff_exists.1 hsome
    exact exec_command_inReset hof hs
  unfold isHostWrite at h
  split at h
  case h_1 code arg tag => exact congrArg Host.Outcome.next (issueCommand_inReset code arg tag hs)
  case h_9 => exact hcommand h
  all_goals exact congrArg Host.Outcome.next (writeWord_inReset _ _ _ _ hs)

theorem exec_unmappedRead_inReset (a : Addr) : exec (.unmappedRead a) s = .next { s with readData := 0#32 } :=
  congrArg Host.Outcome.next (hostRead_inReset a hs)

theorem exec_timebaseTick_inReset (reports : List LineReport) : exec (.timebaseTick reports) s = .next s :=
  congrArg Host.Outcome.next (if_pos hs)

/-- A part that holds its reset values shows them at INTn and on the lines. -/
theorem outputs_of_heldInReset (h : HeldInReset s) :
    s.timebase = 0#32 ∧ intAsserted s = false ∧ ∀ q, driven q s = (.released, .released) := by
  have hflags : s.flags = 0#13 := congrArg State.flags (h hs)
  have hctl (q : SegId) : ctl q s = Controller.reset := (congrArg (ctl q) (h hs)).trans (ctl_reset q)
  refine ⟨congrArg State.timebase (h hs), ?_, fun q => ?_⟩
  · rw [intAsserted, hflags, BitVec.zero_and]
    rfl
  · simp only [driven, hctl]
    rfl

end

/-! ## The timebase (R27) -/

section
variable {s : State} (hs : s.inReset = false)
include hs

/-- A tick takes what has passed on the lines and advances the timebase by one. -/
theorem exec_timebaseTick (reports : List LineReport) :
    exec (.timebaseTick reports) s = .next { linesPass reports s with timebase := s.timebase + 1#32 } := by
  have htimebase : (linesPass reports s).timebase = s.timebase := by
    obtain ⟨⟨_, hframe⟩, -⟩ := takeLineReports_same reports s
    rw [hframe]
  refine congrArg Host.Outcome.next ((outOfReset_released hs).trans ?_)
  rw [tick, htimebase]

/-- A report reaches its segment's controller alone, and there neither the state nor the configuration (log entry 13). -/
theorem exec_timebaseTick_cons (w : LineReport) (reports : List LineReport) :
    ∃ c : Controller, c.cfg = (ctl w.seg s).cfg ∧ c.state = (ctl w.seg s).state
      ∧ exec (.timebaseTick (w :: reports)) s
        = exec (.timebaseTick reports) { s with ctls := putAt s.ctls w.seg c } := by
  obtain ⟨c, hsame, htaken⟩ := takeLineReport_cases s w
  refine ⟨c, by rw [hsame], by rw [hsame], ?_⟩
  have hreleased : (modCtl w.seg (fun _ => c) s).inReset = false := hs
  have hpass : linesPass (w :: reports) s = linesPass reports (modCtl w.seg (fun _ => c) s) :=
    congrArg (linesPass reports) htaken
  rw [exec_timebaseTick hs, hpass]
  exact (exec_timebaseTick hreleased reports).symm

end

/-- Settles O3: the two commands of RESETn, the part under it, and the ticks after its release. -/
theorem pinResetHoldsTheWholePart : Obligations.PinResetHoldsTheWholePart := fun _ =>
  ⟨rfl, rfl,
    fun hs => ⟨fun _ => exec_isHostWrite_inReset hs, exec_unmappedRead_inReset hs, exec_timebaseTick_inReset hs⟩,
    outputs_of_heldInReset,
    fun hs => ⟨exec_timebaseTick hs [], exec_timebaseTick hs, exec_timebaseTick_cons hs⟩⟩

/-! ## The invariants after pin reset -/

theorem queuesBounded_reset : QueuesBounded State.reset := fun q => by
  rw [queue_reset]
  exact bounded_reset

/-- Every controller is OFFLINE with an empty queue (Table 6.1). -/
theorem controllersOk_reset : ControllersOk State.reset := fun q => by
  rw [ctl_reset, queue_reset]
  exact controllerOk_offline (c := Controller.reset) rfl rfl

theorem streaksOk_reset : StreaksOk State.reset := fun q => by
  rw [ctl_reset]
  exact streakOk_offline Controller.reset

/-- RESETn is released there. -/
theorem heldInReset_reset : HeldInReset State.reset := nofun

/-- Settles O60: each record at its value after pin reset. -/
theorem invariantsHoldAfterReset : Obligations.InvariantsHoldAfterReset :=
  have ⟨hbounded, horder⟩ := ringOk_of_empty (s := State.reset) rfl reception_reset
  ⟨queuesBounded_reset, hbounded, horder, controllersOk_reset, streaksOk_reset, heldInReset_reset⟩

end Sys2Proof.Proofs
end

section
/-! Table 10.1 (R157, R158): the row that decides each host access, and the words of the access errors themselves. -/

namespace Sys2Proof.Proofs

open Sys2Proof.Machine Sys2Proof.Safety Sys2Proof.Spec

/-! ## Rows UNMAPPED, PARTIAL, LOCKED and READ_MODE -/

theorem writeError_partial {l : Loc} {be : BitVec 4} (s : State) (hkind : l.kind = .fullWord) (hbe : be ≠ 0xF#4) :
    writeError (some l) be s = some .partialWrite := by
  have hwritable : l.kind ≠ .readOnly := by rw [hkind]; decide
  rw [writeError, if_neg hwritable, if_pos ⟨hkind, hbe⟩]

/-- Only words that can be written are ever locked. -/
theorem kind_of_locked {l : Loc} {s : State} (h : Locked l s) : l.kind ≠ .readOnly := by
  rcases h with ⟨_, rfl | rfl | rfl, -⟩ | ⟨_, rfl | rfl | ⟨_, rfl⟩, -⟩ | ⟨_, rfl, -⟩ | ⟨_, rfl | rfl, -⟩ <;>
    exact LocKind.noConfusion

theorem writeError_locked {l : Loc} {be : BitVec 4} {s : State} (hfull : l.kind = .fullWord → be = 0xF#4)
    (hr : s.resetting = false) (hlocked : Locked l s) : writeError (some l) be s = some .locked := by
  have hrunning : ¬ (s.resetting = true ∧ takenWhileResetting l = false) := by
    rw [hr]
    exact fun h => Bool.false_ne_true h.1
  rw [writeError, if_neg (kind_of_locked hlocked), if_neg fun h => h.2 (hfull h.1), if_neg hrunning,
    if_pos ((locked_iff l s).2 hlocked)]

section
variable {a : Addr} {s : State} (hs : s.inReset = false)
include hs

/-- A host write that a row of Table 10.1 drops. -/
theorem exec_hostWrite_error {l : Option Loc} (ha : locate a = l) {be : BitVec 4} (data : Word) {r : AccessReason}
    (hr : writeError l be s = some r) : exec (.hostWrite a be data) s = .next (errorTaken a true r s) := by
  rw [exec_hostWrite_at ha, writeWord_error data hs hr]

theorem exec_unmappedRead_unmapped (ha : locate a = none) :
    exec (.unmappedRead a) s = .next (errorTaken a false .unmapped { s with readData := 0#32 }) := by
  refine congrArg Host.Outcome.next ?_
  have hvalue : hostReadValue a s = 0#32 := by simp [hostReadValue, ha]
  rw [hostRead, hvalue, if_pos ⟨hs, ha⟩, accessError_eq]

/-- A read of a mapped word takes the word and nothing else (R155). -/
theorem exec_unmappedRead_mapped {l : Loc} (ha : locate a = some l) :
    exec (.unmappedRead a) s = .next { s with readData := readLoc l s } := by
  refine congrArg Host.Outcome.next ?_
  have hvalue : hostReadValue a s = readLoc l s := by simp [hostReadValue, ha, hs]
  have hmapped : ¬ (s.inReset = false ∧ locate a = none) := by simp [ha]
  rw [hostRead, hvalue, if_neg hmapped]

end

/-! ## A full write of the command word while RESETTING (R147, R150) -/

/-- A word is the command word of its three fields (Table 10.3). -/
theorem word_fields (data : Word) :
    word (data.extractLsb' 0 8) (data.extractLsb' 8 8) (data.extractLsb' 16 16) = data := by
  refine BitVec.eq_of_getLsbD_eq fun i hi => ?_
  rw [getLsbD_word]
  split
  · next h => simp [h]
  · split
    · next h8 h16 => simp [show i - 8 < 8 by omega, show 8 + (i - 8) = i by omega]
    · next h8 h16 => simp [show i - 16 < 16 by omega, show 16 + (i - 16) = i by omega]

/-- Whatever its code, the command is refused; one that senses lines has drawn its free value by then (log entry 3). -/
theorem issueCommand_resetting (code arg : Byte) (tag : Half) {s : State} (hs : s.inReset = false)
    (hr : s.resetting = true) :
    ∃ reason index, issueCommand code arg tag s = refused code arg tag reason { s with freeIndex := index } := by
  have hknown {α : Type} {known : Byte} {record : Option α} {owner : α → State → State × Answer} (index : Nat)
      (hcode : code.toNat = known.toNat) :
      ∃ reason index', portCommand known arg tag record owner { s with freeIndex := index }
        = refused code arg tag reason { s with freeIndex := index' } := by
    cases BitVec.eq_of_toNat_eq hcode
    exact ⟨.resetting, index, portCommand_resetting code arg tag record owner hs hr⟩
  rw [issueCommand, if_neg (by rw [hs]; exact Bool.false_ne_true)]
  split
  case h_7 h => exact hknown (s.freeIndex + 1) h
  case h_9 h => exact hknown (s.freeIndex + 1) h
  case h_18 =>
    refine ⟨.unknownCommand, s.freeIndex, ?_⟩
    rw [refuseUnknown, commandWord_eq]
    rfl
  all_goals
    next h => exact hknown s.freeIndex h

/-- It is no access error. -/
theorem exec_hostWrite_command_resetting {a : Addr} (data : Word) {s : State} (hs : s.inReset = false)
    (ha : locate a = some (.global .command)) (hr : s.resetting = true) :
    ∃ t, exec (.hostWrite a 0xF#4 data) s = .next t ∧ t.command = data ∧ t.result.outcome = .refused
      ∧ t.accessCount = s.accessCount ∧ t.accessRecord = s.accessRecord ∧ t.flags = s.flags := by
  obtain ⟨reason, index, hissued⟩ :=
    issueCommand_resetting (data.extractLsb' 0 8) (data.extractLsb' 8 8) (data.extractLsb' 16 16) hs hr
  refine ⟨refused _ _ _ reason { s with freeIndex := index }, ?_, word_fields data, rfl, rfl, rfl, rfl⟩
  rw [exec_hostWrite_at ha, writeWord_stored a data hs (writeError_command s), storeLoc, storeGlobal, hissued]

/-- Settles O5: the rows of Table 10.1 in their order, and the two accesses that are no errors. -/
theorem accessErrorsFollowTheTable : Obligations.AccessErrorsFollowTheTable := by
  intro a be data s hs
  refine ⟨fun ha => ⟨exec_hostWrite_error hs ha data rfl, exec_unmappedRead_unmapped hs ha⟩,
    fun l ha hkind => exec_hostWrite_readOnly be data hs ha hkind,
    fun l ha hkind hbe => exec_hostWrite_error hs ha data (writeError_partial s hkind hbe),
    fun l ha hkind hfull hr hcommand hflags _ => exec_hostWrite_resetting data hs hr ha hkind hfull hcommand hflags,
    fun l ha hfull hr hlocked _ => exec_hostWrite_error hs ha data (writeError_locked hfull hr hlocked),
    fun e w ha _ hr hmode => exec_hostWrite_error hs ha data (by simp [writeError_staging, hr, hmode]),
    fun ha => exec_unmappedRead_mapped hs ha, fun ha hr => exec_hostWrite_command_resetting data hs ha hr⟩

/-! ## The words of the access errors (R158) -/

section
variable {l : Loc} (hl : l = .global .accessRecord ∨ l = .global .accessCount) (a : Addr) {be : BitVec 4} (data : Word)
  {s : State} (hs : s.inReset = false)
include hl

/-- The record word and the count word: a full write, taken outside RESETTING only. -/
theorem writeError_accessWord (be : BitVec 4) (s : State) :
    writeError (some l) be s
      = if be ≠ 0xF#4 then some .partialWrite else if s.resetting = true then some .resetting else none := by
  rcases hl with rfl | rfl <;>
    simp [writeError, Loc.kind, GlobalWord.kind, takenWhileResetting, locked, readModeStaging]

include hs

theorem writeWord_accessWord_stored (hbe : be = 0xF#4) (hr : s.resetting = false) :
    writeWord (some l) a be data s = storeLoc l be data s :=
  writeWord_stored a data hs (by rw [writeError_accessWord hl, if_neg (not_not_intro hbe), hr]; rfl)

theorem writeWord_accessWord_resetting (hbe : be = 0xF#4) (hr : s.resetting = true) :
    writeWord (some l) a be data s = errorTaken a true .resetting s :=
  writeWord_error data hs (by rw [writeError_accessWord hl, if_neg (not_not_intro hbe), if_pos hr])

theorem writeWord_accessWord_partial (hbe : be ≠ 0xF#4) :
    writeWord (some l) a be data s = errorTaken a true .partialWrite s :=
  writeWord_error data hs (by rw [writeError_accessWord hl, if_pos hbe])

end

/-- Settles O12: each of the two words by its row of Table 10.1. -/
theorem accessErrorWordsAreCleared : Obligations.AccessErrorWordsAreCleared := by
  intro be data s hs
  refine ⟨fun hbe hr => ⟨congrArg Host.Outcome.next ?_, congrArg Host.Outcome.next ?_⟩,
    fun hbe hr => ⟨congrArg Host.Outcome.next ?_, congrArg Host.Outcome.next ?_⟩,
    fun hbe => ⟨congrArg Host.Outcome.next ?_, congrArg Host.Outcome.next ?_⟩⟩
  · exact writeWord_accessWord_stored (.inl rfl) _ data hs hbe hr
  · exact writeWord_accessWord_stored (.inr rfl) _ data hs hbe hr
  · exact writeWord_accessWord_resetting (.inl rfl) _ data hs hbe hr
  · exact writeWord_accessWord_resetting (.inr rfl) _ data hs hbe hr
  · exact writeWord_accessWord_partial (.inl rfl) _ data hs hbe
  · exact writeWord_accessWord_partial (.inr rfl) _ data hs hbe

end Sys2Proof.Proofs
end
